-- ==== Sys2Proof/Word.lean ====
section
/-! DEFINITION. The byte, the one unit every space of the block is made of (spec/20_memory.md R40). -/

namespace Sys2Proof

/-- A byte is 8 bits, bit 0 its least significant bit (spec/00_scope.md R7). -/
abbrev Byte := BitVec 8

end Sys2Proof
end

