-- ==== Sys2Proof/Config.lean ====
section
/-! DEFINITION. What an implementation fixes: the parameters of spec/00_scope.md R5 at the values this hardware takes, the one
parameter R5 leaves open that a rule reads, and the FREE VALUES of the cells that RESET leaves unspecified
(spec/10_state.md R34). A free value has no body: nothing in Lean can evaluate it. -/

namespace Sys2Proof.Config

/-- STATUS_COLS (R5): one-byte columns of the status strip. -/
@[simp] abbrev statusCols : Nat := 128
/-- FB_ROWS (R5): rows of the framebuffer grid. -/
@[simp] abbrev fbRows : Nat := 7
/-- FB_COLS (R5): one-byte columns of a framebuffer row. -/
@[simp] abbrev fbCols : Nat := 128
/-- PLANES (R5): bit-planes of a source byte. -/
@[simp] abbrev planes : Nat := 8
/-- PLANE_BYTES (R5): packed bytes of one plane of a 128-column row. -/
@[simp] abbrev planeBytes : Nat := 16
/-- ROW_BYTES (R5): packed bytes of one source row. -/
@[simp] abbrev rowBytes : Nat := 128
/-- FRAME_BYTES (R5): size of the assembled and of the previous frame. -/
@[simp] abbrev frameBytes : Nat := 1024
/-- BLOCK_BYTES (R5): size of a block. -/
@[simp] abbrev blockBytes : Nat := 8
/-- NBLOCKS (R5): number of blocks. -/
@[simp] abbrev nBlocks : Nat := 128
/-- GROUP_BYTES (R5): size of one delta group. -/
@[simp] abbrev groupBytes : Nat := 9
/-- DELTA_MAX (R5): size of the largest delta payload. -/
@[simp] abbrev deltaMax : Nat := 1152
/-- KEEPALIVE_MAX (R5): the reload value of the keepalive counter. -/
@[simp] abbrev keepaliveMax : BitVec 4 := 10
/-- SYNC0 (R5, R81). -/
@[simp] abbrev sync0 : Byte := 0xAA
/-- SYNC1 (R5, R81). -/
@[simp] abbrev sync1 : Byte := 0x55
/-- MSG_TYPE (R5, R82): "delta screenshot frame". -/
@[simp] abbrev msgType : Byte := 0x02
/-- TERM (R5, R85). -/
@[simp] abbrev term : Byte := 0x0A
/-- CURSOR_RESET (R5; the spec's decision D1, log 1). -/
@[simp] abbrev cursorReset : BitVec 7 := 0
/-- KEEPALIVE_RESET (R5; the spec's decision D2, log 1). -/
@[simp] abbrev keepaliveReset : BitVec 4 := 10

/-- TX_HAS_READY (R5, R30, R234): whether the transmit port has back-pressure. The spec leaves it OPEN (D17; log 13). -/
opaque txHasReady : Bool

/-! Free values. Each is what one cell holds after the RESET numbered `n` (log 3): R34 calls the cell unspecified. The
types keep the range R16 gives the register. -/

/-- CUR[i] after RESET number `n` (R34). -/
opaque resetCur (n i : Nat) : Byte
/-- DELTA[i] after RESET number `n` (R34). -/
opaque resetDelta (n i : Nat) : Byte
/-- The number of groups DLEN stands for after RESET number `n` (R34; DLEN is a multiple of 9 up to 1152, R15). -/
opaque resetGroups (n : Nat) : Fin 129
/-- ACC after RESET number `n` (R34). -/
opaque resetAcc (n : Nat) : Byte
/-- BITCNT after RESET number `n` (R34; 0 to 8, R16). -/
opaque resetBitcnt (n : Nat) : Fin 9
/-- OIDX after RESET number `n` (R34; 0 to 1024, R16). -/
opaque resetOidx (n : Nat) : Fin 1025
/-- BLK after RESET number `n` (R34; 0 to 128, R16). -/
opaque resetBlk (n : Nat) : Fin 129
/-- FORCE after RESET number `n` (R34). -/
opaque resetForce (n : Nat) : Bool
/-- The code of OUTCOME after RESET number `n` (R34, R104). -/
opaque resetOutcome (n : Nat) : Fin 4
/-- The packing position after RESET number `n` (it is meaningful within PACK only, R20). -/
opaque resetPos (n : Nat) : BitVec 13
/-- Condition signal number `k` after RESET number `n` (no signal survives an invocation, R18). -/
opaque resetSignal (n k : Nat) : Bool

end Sys2Proof.Config
end

