-- ==== Sys2Proof/Syntax.lean ====
section
/-! DEFINITION. The operations of the block: one constructor for each row of spec/opcode_table.json, and the five formats
their encodings have (spec/30_encoding.md R70). A micro-operation's operands are all implicit (R73): they are read from State,
so its constructor carries none. -/

namespace Sys2Proof

/-- The formats of R70 that a row of the opcode table has. FRAME1024 (R74) is a layout of bytes, no row. -/
inductive Format where
  /-- The command word on port `force` (R71). -/
  | cmd
  /-- The reset request on port `rst` (R72). -/
  | pin
  /-- A micro-operation tag (R73). -/
  | uop
  /-- One delta group (R76). -/
  | group
  /-- One wire frame (R80). -/
  | wire
  deriving DecidableEq, Repr

/-- One delta group (R76): the block-index byte (R75) and the data bytes, in the order they are sent. -/
structure Group where
  index : Byte
  data : List Byte
  deriving DecidableEq, Repr

/-- The operations, in the table's order. -/
inductive Instr where
  /-- SHOT (R100): one invocation, with the command bit `force`. -/
  | shot (force : Bool)
  /-- RESET (R104). -/
  | reset
  /-- GATE (R120), tag 0. -/
  | gate
  /-- PACK (R130), tag 1. -/
  | pack
  /-- PACKROW (R131), tag 2; implicit operand R. -/
  | packrow
  /-- PACKBIT (R132), tag 3; implicit operands R, p, c. -/
  | packbit
  /-- FLUSH (R133), tag 4; implicit operands ACC, OIDX. -/
  | flush
  /-- PFLUSH (R134), tag 5; implicit operands ACC, BITCNT, OIDX. -/
  | pflush
  /-- GUARD (R135), tag 6; implicit operand OIDX. -/
  | guard
  /-- DPASS (R150), tag 7; implicit operands CUR, PREV, CURSOR, FORCE. -/
  | dpass
  /-- CMP8 (R151), tag 8; implicit operand BLK. -/
  | cmp8
  /-- SEL (R152), tag 9; implicit operands BLK, `changed`, CURSOR, FORCE. -/
  | sel
  /-- EMITBLK (R153), tag 10; implicit operand BLK. -/
  | emitblk
  /-- ADVANCE (R160), tag 11; implicit operand CURSOR. -/
  | advance
  /-- EMPTYCHK (R170), tag 12; implicit operand DLEN. -/
  | emptychk
  /-- FRAME (R171), tag 13; implicit operands DELTA, DLEN. -/
  | frame
  /-- TX (R172), tag 14; implicit operand a byte sequence. -/
  | tx
  /-- GROUP (R76): one selected block, as EMITBLK writes it (semantics rule R153). -/
  | group (g : Group)
  /-- WIRE (R80): one transmitted frame, as FRAME sends it (semantics rule R171). -/
  | wire (gs : List Group)
  deriving DecidableEq, Repr

end Sys2Proof
end

