-- ==== Sys2Proof/WellFormed.lean ====
section
/-! DEFINITION. Which terms of the syntax are instructions the block can have (spec/30_encoding.md R75, R76, R77, R89).
Only the two data formats carry operands that can be ill-formed: both values of the command bit are legal (R71, R86) and a
micro-operation has no operand in its word. -/

namespace Sys2Proof

/-- R75, R76: the index byte is 0 to 127, and eight data bytes follow it. -/
def Group.wf (g : Group) : Bool :=
  decide (g.index.toNat < Config.nBlocks) && decide (g.data.length = Config.blockBytes)

/-- R77: the block indices stand in strictly ascending order. -/
def ascending : List Group → Bool
  | [] => true
  | [_] => true
  | g :: h :: rest => decide (g.index.toNat < h.index.toNat) && ascending (h :: rest)

/-- R89: 1 to 128 well-formed groups, indices strictly ascending. -/
def wfPayload (gs : List Group) : Bool :=
  decide (1 ≤ gs.length) && decide (gs.length ≤ Config.nBlocks) && gs.all Group.wf && ascending gs

/-- The well-formed instructions. -/
def Instr.wf : Instr → Bool
  | .shot _ => true
  | .reset => true
  | .gate => true
  | .pack => true
  | .packrow => true
  | .packbit => true
  | .flush => true
  | .pflush => true
  | .guard => true
  | .dpass => true
  | .cmp8 => true
  | .sel => true
  | .emitblk => true
  | .advance => true
  | .emptychk => true
  | .frame => true
  | .tx => true
  | .group g => g.wf
  | .wire gs => wfPayload gs

end Sys2Proof
end

