-- ==== Sys2Proof/Decode.lean ====
section
/-! DEFINITION. The encodings of spec/30_encoding.md: the decoder, total on any bytes and rejecting by name, and after it the
encoder. The five formats do not share a stream (the command port, the reset pin, the sequencer's tag, a delta group, a wire
frame: R70), so an encoding is a format with its bytes. -/

namespace Sys2Proof

/-- Why a decoder rejects some bytes. -/
inductive DecodeError where
  /-- CMD or UOP: not exactly the one byte that carries the word (log 18). -/
  | wordLength
  /-- CMD: a bit above the 1-bit command word is set (R71, log 18). -/
  | commandBits
  /-- PIN: RESET has no command word (R72). -/
  | resetWord
  /-- UOP: a bit above the 4-bit tag is set (R73, log 18). -/
  | tagBits
  /-- UOP: tag 15, unused and never issued (R73). -/
  | unusedTag
  /-- GROUP: not 9 bytes (R76). -/
  | groupLength
  /-- GROUP or WIRE: an index byte of 128 or more (R75, R86). -/
  | indexRange
  /-- WIRE: fewer bytes than the 5-byte header (R80). -/
  | headerShort
  /-- WIRE: the first two bytes are not `AA 55` (R81). -/
  | syncMarker
  /-- WIRE: a message type other than `02` (R82, R86). -/
  | messageType
  /-- WIRE: a length of 0 (R86). -/
  | lengthZero
  /-- WIRE: a length that is no multiple of 9 (R86). -/
  | lengthNotGroups
  /-- WIRE: a length above 1152 (R86). -/
  | lengthRange
  /-- WIRE: the bytes after the header are not N payload bytes and one more (R80, R86). -/
  | frameLength
  /-- WIRE: the last byte is not `0A` (R85, R86). -/
  | terminator
  /-- WIRE: indices out of ascending order, or repeated (R86). -/
  | indexOrder
  deriving DecidableEq, Repr

/-- Format CMD (R71): bit 0 is `force`, both values legal. -/
def decodeCmd : List Byte → Except DecodeError Instr
  | [w] => if w.toNat < 2 then .ok (.shot (w.getLsbD 0)) else .error .commandBits
  | _ => .error .wordLength

/-- Format PIN (R72): no word. -/
def decodePin : List Byte → Except DecodeError Instr
  | [] => .ok .reset
  | _ :: _ => .error .resetWord

/-- The tags of R73. -/
def decodeTag : Nat → Except DecodeError Instr
  | 0 => .ok .gate
  | 1 => .ok .pack
  | 2 => .ok .packrow
  | 3 => .ok .packbit
  | 4 => .ok .flush
  | 5 => .ok .pflush
  | 6 => .ok .guard
  | 7 => .ok .dpass
  | 8 => .ok .cmp8
  | 9 => .ok .sel
  | 10 => .ok .emitblk
  | 11 => .ok .advance
  | 12 => .ok .emptychk
  | 13 => .ok .frame
  | 14 => .ok .tx
  | 15 => .error .unusedTag
  | _ => .error .tagBits

/-- Format UOP (R73): the 4-bit tag in the low bits of one byte. -/
def decodeUop : List Byte → Except DecodeError Instr
  | [w] => decodeTag w.toNat
  | _ => .error .wordLength

/-- Format GROUP (R76): the index byte, then eight data bytes. -/
def decodeGroup : List Byte → Except DecodeError Instr
  | [] => .error .groupLength
  | i :: data =>
    if data.length ≠ Config.blockBytes then .error .groupLength
    else if Config.nBlocks ≤ i.toNat then .error .indexRange
    else .ok (.group ⟨i, data⟩)

/-- The payload cut into `n` groups of 9 bytes (R88). -/
def cutGroups : Nat → List Byte → List Group
  | 0, _ => []
  | _ + 1, [] => []
  | n + 1, i :: rest => ⟨i, rest.take Config.blockBytes⟩ :: cutGroups n (rest.drop Config.blockBytes)

/-- The groups of a payload, checked as R86 lists it. -/
def decodePayload (gs : List Group) : Except DecodeError Instr :=
  if gs.all Group.wf then (if ascending gs then .ok (.wire gs) else .error .indexOrder) else .error .indexRange

/-- What follows a header that announces `n` payload bytes (R80, R83 to R86, R88). -/
def decodeBody (n : Nat) (rest : List Byte) : Except DecodeError Instr :=
  if n = 0 then .error .lengthZero
  else if n % Config.groupBytes ≠ 0 then .error .lengthNotGroups
  else if Config.deltaMax < n then .error .lengthRange
  else if rest.length ≠ n + 1 then .error .frameLength
  else if rest.drop n ≠ [Config.term] then .error .terminator
  else decodePayload (cutGroups (n / Config.groupBytes) rest)

/-- Format WIRE (R80, R88): the length is read from bytes 3 and 4, the high byte first. -/
def decodeWire : List Byte → Except DecodeError Instr
  | a :: b :: t :: hi :: lo :: rest =>
    if a ≠ Config.sync0 ∨ b ≠ Config.sync1 then .error .syncMarker
    else if t ≠ Config.msgType then .error .messageType
    else decodeBody (256 * hi.toNat + lo.toNat) rest
  | _ => .error .headerShort

/-- The decoder. -/
def decode : Format → List Byte → Except DecodeError Instr
  | .cmd, bs => decodeCmd bs
  | .pin, bs => decodePin bs
  | .uop, bs => decodeUop bs
  | .group, bs => decodeGroup bs
  | .wire, bs => decodeWire bs

/-- The bytes of a group, the index first (R76). -/
def Group.bytes (g : Group) : List Byte := g.index :: g.data

/-- Groups back to back, with no separator, count or padding (R77). -/
def payloadBytes (gs : List Group) : List Byte := gs.flatMap Group.bytes

/-- The length field (R83): 16 bits, high byte first. -/
def lengthField (n : Nat) : List Byte := [BitVec.ofNat 8 (n / 256), BitVec.ofNat 8 (n % 256)]

/-- The wire frame that carries a payload (R80). -/
def wireBytes (payload : List Byte) : List Byte :=
  [Config.sync0, Config.sync1] ++ [Config.msgType] ++ lengthField payload.length ++ payload ++ [Config.term]

/-- The encoder: the format and the bytes of a well-formed instruction. -/
def encode : Instr → Format × List Byte
  | .shot f => (.cmd, [if f then 1 else 0])
  | .reset => (.pin, [])
  | .gate => (.uop, [0])
  | .pack => (.uop, [1])
  | .packrow => (.uop, [2])
  | .packbit => (.uop, [3])
  | .flush => (.uop, [4])
  | .pflush => (.uop, [5])
  | .guard => (.uop, [6])
  | .dpass => (.uop, [7])
  | .cmp8 => (.uop, [8])
  | .sel => (.uop, [9])
  | .emitblk => (.uop, [10])
  | .advance => (.uop, [11])
  | .emptychk => (.uop, [12])
  | .frame => (.uop, [13])
  | .tx => (.uop, [14])
  | .group g => (.group, g.bytes)
  | .wire gs => (.wire, wireBytes (payloadBytes gs))

/-- The `n` low bytes of a number, the most significant first: how the table numbers GROUP (its index byte is bits 71:64)
and WIRE ("first byte most significant"). -/
def bytesBE : Nat → Nat → List Byte
  | 0, _ => []
  | n + 1, w => BitVec.ofNat 8 (w / 256 ^ n) :: bytesBE n w

/-- The encoding that `nbits` bits of an opcode-table row stand for (log 17): no bit is RESET's row, one bit SHOT's, up to one
byte a micro-operation's tag, 72 bits GROUP's. The table's match of WIRE is the 24 bits of marker and type only; with every
operand bit 0 they are completed to the shortest frame the format has (one group, index 0, data 0). Any other width is a whole
wire frame, first byte most significant. -/
def tableLayout (nbits w : Nat) : Format × List Byte :=
  if nbits = 0 then (.pin, [])
  else if nbits = 1 then (.cmd, [BitVec.ofNat 8 (w % 2)])
  else if nbits ≤ 8 then (.uop, [BitVec.ofNat 8 w])
  else if nbits = 72 then (.group, bytesBE 9 w)
  else if nbits = 24 then (.wire, bytesBE 3 w ++ lengthField 9 ++ List.replicate 9 0 ++ [Config.term])
  else (.wire, bytesBE ((nbits + 7) / 8) w)

/-- The instruction the decoder reads from a row's bits. -/
def decodeTableWord (nbits w : Nat) : Option Instr :=
  match decode (tableLayout nbits w).1 (tableLayout nbits w).2 with
  | .ok i => some i
  | .error _ => none

end Sys2Proof
end

