-- ==== Sys2Proof/Machine/State.lean ====
section
/-! DEFINITION. The state of the machine as plain data: every cell, register, signal and port the spec gives the block
(spec/10_state.md), the transmitted stream, and the model's own fields, which say so. -/

namespace Sys2Proof.Machine

/-- A byte buffer (spec/20_memory.md R40): (address, byte) pairs in the canonical form of `Memory.wf`. -/
abbrev Memory := List Host.Cell

/-- PHASE (R20), the sequencer's position. Codes 6 and 7 are never entered and have no constructor. -/
inductive Phase where
  | idle
  | gate
  | pack
  | guard
  | delta
  | frame
  deriving DecidableEq, Repr

/-- OUTCOME (R19, R191): how the last invocation ended. -/
inductive ExitCode where
  | sent
  | suppressed
  | abortedShape
  | skippedEmpty
  deriving DecidableEq, Repr

/-- What the environment does at one step (R90, R196; log 6). The operations it can request are SHOT and RESET and no other
(R4, R21): no stimulus reaches a micro-operation, and none reaches PREV, CURSOR or KEEPALIVE (R232, U1). -/
inductive Stimulus where
  /-- The command word of SHOT is presented (R71); the invocation runs as one transition (R101). -/
  | command (force : Bool)
  /-- RESET is requested (R72), for this one step. -/
  | reset
  /-- The input pins of R30 take these levels, and the sequencer makes one move. -/
  | pins (rst start force link ready : Bool)
  /-- `link_present` takes this level (the `link=` part of a SHOT statement). -/
  | link (l : Bool)
  /-- `SRC ZERO`: every source byte becomes 0. -/
  | srcZero
  /-- `SRC STATUS[c] = v` (row 0) and `SRC FB[r][c] = v` (row r + 1). -/
  | srcByte (row : BitVec 3) (col : BitVec 7) (v : Byte)
  /-- `SRC STATUS[*] = v` and `SRC FB[r][*] = v`. -/
  | srcRow (row : BitVec 3) (v : Byte)
  deriving DecidableEq, Repr

/-- Why a step stops with a fault. The block itself raises none (R190): each stands for an access to which the spec gives no
effect, and each is safe (the model stops where the hardware is not described). No fault can be reached by an invocation. -/
inductive Fault where
  /-- A byte of CUR at index 1024 or above would be written. Raised by FLUSH, by PACKBIT and PACKROW through FLUSH, and by
  PFLUSH (R134, R138, U4, U5). Safe. -/
  | curOverrun
  /-- A block index of 128 or above. Raised by CMP8 and EMITBLK (R52, R151, R153). Safe. -/
  | blockOutOfRange
  /-- A byte of DELTA at index 1152 or above would be written or read. Raised by EMITBLK, GROUP and FRAME (R40, R52). Safe. -/
  | deltaOverrun
  /-- The operand of GROUP or WIRE is ill-formed, so it is none of the block's data (R86). No decoded instruction raises it.
  Safe. -/
  | illFormed
  deriving DecidableEq, Repr

/-- Why a step is refused. -/
inductive Refusal where
  /-- Raised by `exec` for an instruction without a meaning. Safe. -/
  | notModelled (mnemonic : String)
  /-- Raised by the step where the bytes on the test bench encode no operation (R73, R86). The environment cannot cause it.
  Safe. -/
  | undecodable (e : DecodeError)
  /-- Raised by the step where the display subsystem would change a source between the first and the last source read of PACK
  (R230, U3). Safe. -/
  | sourceChangedDuringPack
  deriving DecidableEq, Repr

/-- The state. -/
@[ext]
structure State where
  /-- PREV (R11). -/
  prev : Memory
  /-- CURSOR (R12). -/
  cursor : BitVec 7
  /-- KEEPALIVE (R13). -/
  keepalive : BitVec 4
  /-- CUR (R14). -/
  cur : Memory
  /-- DELTA (R15). -/
  delta : Memory
  /-- DLEN (R15, R16). -/
  dlen : BitVec 11
  /-- ACC (R16). -/
  acc : Byte
  /-- BITCNT (R16). -/
  bitcnt : BitVec 4
  /-- OIDX (R16). -/
  oidx : BitVec 11
  /-- BLK (R16). -/
  blk : BitVec 8
  /-- FORCE (R16), the latched operand. -/
  force : Bool
  /-- `proceed` (R18). -/
  proceed : Bool
  /-- `shape_ok` (R18). -/
  shapeOk : Bool
  /-- `changed` (R18). -/
  changed : Bool
  /-- `forced` (R18). -/
  forced : Bool
  /-- `include` (R18). -/
  included : Bool
  /-- `empty` (R170). -/
  empty : Bool
  /-- PHASE (R20). -/
  phase : Phase
  /-- The position within PACK (R20, R130): the 13-bit number {R, p, c} of R74. -/
  pos : BitVec 13
  /-- OUTCOME (R19). -/
  outcome : ExitCode
  /-- Port `done` (R30). -/
  done : Bool
  /-- Port `rst` (R30, R72). -/
  rst : Bool
  /-- Port `start` (R30). -/
  start : Bool
  /-- Port `force` (R30, R71). -/
  forcePin : Bool
  /-- Port `link_present` (R30, R31). -/
  linkPresent : Bool
  /-- Port `tx_ready` (R30, R234). -/
  txReady : Bool
  /-- STATUS (R41), external: byte c at address c. -/
  status : Memory
  /-- FB (R42), external: byte (r, c) at address 128 r + c. -/
  fb : Memory
  /-- The bytes transmitted by the current or the last invocation (R8, R101). -/
  tx : List Byte
  /-- The TX space (R40): every byte handed to the transport, in order of emission. -/
  stream : List Byte
  /-- MODEL's own: the byte sequence TX is called with (R172; log 9). -/
  txArg : List Byte
  /-- MODEL's own: how many RESETs there were; the free values of RESET are read at it (log 3). -/
  resets : Nat
  /-- MODEL's own: what the environment does next, in order (log 6). -/
  stimuli : List Stimulus
  /-- MODEL's own, no port of the block: the test bench. A state built by hand may hold one operation's encoding here, which
  the next step decodes and runs (R21's liberty of the harness; log 26). No step ever fills it. -/
  bench : Option (Format × List Byte)
  deriving DecidableEq, Repr

/-- The machine right after reset: the values of R34, and for the cells R34 calls unspecified, the input ports and the
external sources the values log 2 and log 5 name. -/
def State.reset : State where
  prev := []
  cursor := Config.cursorReset
  keepalive := Config.keepaliveReset
  cur := []
  delta := []
  dlen := 0
  acc := 0
  bitcnt := 0
  oidx := 0
  blk := 0
  force := false
  proceed := false
  shapeOk := false
  changed := false
  forced := false
  included := false
  empty := false
  phase := .idle
  pos := 0
  outcome := .sent
  done := false
  rst := false
  start := false
  forcePin := false
  linkPresent := false
  txReady := false
  status := []
  fb := []
  tx := []
  stream := []
  txArg := []
  resets := 0
  stimuli := []
  bench := none

end Sys2Proof.Machine
end

