-- ==== Sys2Proof/Machine/Memory.lean ====
section
/-! DEFINITION. The byte buffers of spec/20_memory.md R40 as lists in one canonical form: addresses strictly rising, and no
entry that holds what an unlisted address reads as. -/

namespace Sys2Proof.Machine

/-- What an address that is not listed reads as: 0. For PREV that is the spec's reset value (R11, R34); for the other
buffers it is a choice (log 4). -/
abbrev unlisted : Byte := 0

/-- The byte at an address. Reading has no side effect (R54). -/
def Memory.read : Memory → Nat → Byte
  | [], _ => unlisted
  | (k, x) :: rest, a => if k = a then x else Memory.read rest a

/-- Store one byte; the entry goes where it stores what an unlisted address reads as. -/
def Memory.write : Memory → Nat → Byte → Memory
  | [], a, v => if v = unlisted then [] else [(a, v)]
  | (k, x) :: rest, a, v =>
    if a < k then (if v = unlisted then (k, x) :: rest else (a, v) :: (k, x) :: rest)
    else if a = k then (if v = unlisted then rest else (a, v) :: rest)
    else (k, x) :: Memory.write rest a v

/-- Store bytes at ascending addresses from `a` (R51). -/
def Memory.writeBytes (m : Memory) (a : Nat) : List Byte → Memory
  | [] => m
  | v :: vs => Memory.writeBytes (Memory.write m a v) (a + 1) vs

/-- The buffer whose byte `i` is `f i` for every `i` below `n`. -/
def Memory.tabulate (n : Nat) (f : Nat → Byte) : Memory :=
  ((List.range n).map fun i => (i, f i)).filter fun c => c.2 ≠ unlisted

/-- Addresses strictly rise. -/
def Memory.sorted : Memory → Bool
  | [] => true
  | [_] => true
  | c :: d :: rest => decide (c.1 < d.1) && Memory.sorted (d :: rest)

/-- The canonical form. -/
def Memory.wf (m : Memory) : Bool := Memory.sorted m && m.all fun c => c.2 ≠ unlisted

/-- Every listed address lies below `n`: the buffer has `n` bytes. -/
def Memory.within (m : Memory) (n : Nat) : Bool := m.all fun c => c.1 < n

end Sys2Proof.Machine
end

