-- ==== Sys2Proof/Machine/Operands.lean ====
section
/-! DEFINITION. The implicit operands of the micro-operations (spec/30_encoding.md R73), read from State. -/

namespace Sys2Proof.Machine

/-- `SRC[R][c]` (spec/20_memory.md R43): row 0 is STATUS, row R ≥ 1 is FB row R - 1. -/
def srcByte (s : State) (R c : Nat) : Byte :=
  if R = 0 then s.status.read c else s.fb.read (Config.fbCols * (R - 1) + c)

/-- R of the position {R, p, c} (R74). -/
def posRow (s : State) : BitVec 3 := s.pos.extractLsb' 10 3

/-- p of the position. -/
def posPlane (s : State) : BitVec 3 := s.pos.extractLsb' 7 3

/-- c of the position. -/
def posCol (s : State) : BitVec 7 := s.pos.extractLsb' 0 7

/-- The position at the start of row R: the triple (R, 0, 0). -/
def rowStart (R : BitVec 3) : BitVec 13 := R ++ (0 : BitVec 10)

/-- `BLKOF(X, b)` (R8): bytes 8b to 8b + 7 of a buffer, ascending. -/
def blkOf (m : Memory) (b : Nat) : List Byte :=
  (List.range Config.blockBytes).map fun k => m.read (Config.blockBytes * b + k)

/-- `DELTA[0 .. DLEN-1]` (R15). -/
def deltaPayload (s : State) : List Byte := (List.range s.dlen.toNat).map fun i => s.delta.read i

/-- The frame FRAME sends from DELTA and DLEN (R171). -/
def frameOf (s : State) : List Byte := wireBytes (deltaPayload s)

end Sys2Proof.Machine
end

