-- ==== Sys2Proof/Machine/Flags.lean ====
section
/-! DEFINITION. The condition signals (spec/10_state.md R18): how each is computed. The block has no flags register. -/

namespace Sys2Proof.Machine

/-- KEEPALIVE after GATE (R120): reloaded with the link, else counted down, never below 0. -/
def gateKeepalive (link : Bool) (k : BitVec 4) : BitVec 4 :=
  if link then Config.keepaliveMax else if k ≠ 0 then k - 1 else k

/-- `proceed` (R120): with the link always, else where the counter stood above 0 and the decrement leaves it above 0. -/
def gateProceed (link : Bool) (k : BitVec 4) : Bool :=
  if link then true else if k ≠ 0 then decide (k - 1 ≠ 0) else false

/-- `shape_ok` (R135). -/
def shapeOkFlag (oidx : BitVec 11) : Bool := decide (oidx.toNat = Config.frameBytes)

/-- The byte lanes of CMP8's exclusive-or (R151). -/
def diffLanes (cur prev : Memory) (b : Nat) : List Byte :=
  (List.range Config.blockBytes).map fun m =>
    cur.read (Config.blockBytes * b + m) ^^^ prev.read (Config.blockBytes * b + m)

/-- `changed` (R151): the lanes or-ed together are not 0. -/
def changedFlag (cur prev : Memory) (b : Nat) : Bool :=
  decide ((diffLanes cur prev b).foldl (· ||| ·) 0 ≠ 0)

/-- `forced` (R152). -/
def forcedFlag (b : BitVec 8) (cursor : BitVec 7) : Bool := decide (b.toNat = cursor.toNat)

/-- `include` (R152). -/
def includeFlag (changed forced force : Bool) : Bool := changed || forced || force

/-- `empty` (R170). -/
def emptyFlag (dlen : BitVec 11) : Bool := decide (dlen = 0)

end Sys2Proof.Machine
end

