-- ==== Sys2Proof/Machine/Ops.lean ====
section
/-! DEFINITION. The shared operations: sequencing, the end of an invocation (which is what stands in the place of taking an
exception: spec/60_exceptions.md R190, R198), its start, the transmit operation, and RESET. -/

namespace Sys2Proof.Machine

/-- What an operation answers. -/
abbrev Res := Host.Outcome State Fault Refusal

/-- Go on from a next state; a fault or a refusal ends the sequence. -/
def andThen (r : Res) (k : State → Res) : Res :=
  match r with
  | .next s => k s
  | .fault f => .fault f
  | .refused e => .refused e

/-- A counted loop (R102: every loop has a fixed trip count). -/
def times : Nat → (State → Res) → State → Res
  | 0, _, s => .next s
  | n + 1, f, s => andThen (f s) (times n f)

/-- The start of an invocation (R101, R31): FORCE takes the command bit, nothing is transmitted yet, PHASE leaves IDLE. -/
def acceptStart (f : Bool) (s : State) : State :=
  { s with force := f, tx := [], done := false, phase := .gate }

/-- The end of an invocation, early or normal (R198): OUTCOME takes the code, `done` pulses, PHASE becomes IDLE. No state is
saved, no handler entered. There is no return from it: the block is ready for the next invocation (R199). -/
def exitInvocation (c : ExitCode) (s : State) : State :=
  { s with outcome := c, done := true, phase := .idle }

/-- TX (R172): the bytes of its operand go, in order, to the stream of this invocation and to the transport. -/
def txOp (s : State) : State := { s with tx := s.tx ++ s.txArg, stream := s.stream ++ s.txArg }

/-- TX called with a byte sequence. -/
def txBytes (bs : List Byte) (s : State) : State := txOp { s with txArg := bs }

/-- The exit code a 2-bit value stands for (R191). -/
def exitOfCode (n : Fin 4) : ExitCode :=
  match n with
  | 0 => .sent
  | 1 => .suppressed
  | 2 => .abortedShape
  | 3 => .skippedEmpty

/-- RESET (R104, R220, R222): PREV, CURSOR, KEEPALIVE and PHASE take their reset values, `done` is 0 and nothing is
transmitted; bytes already handed over stay sent. The cells R34 calls unspecified, OUTCOME among them, are left FREE (log 3).
The input ports, the sources and the environment's stimuli are not the block's. -/
def resetOp (s : State) : State :=
  { s with
    prev := []
    cursor := Config.cursorReset
    keepalive := Config.keepaliveReset
    phase := .idle
    done := false
    cur := Memory.tabulate Config.frameBytes (Config.resetCur s.resets)
    delta := Memory.tabulate Config.deltaMax (Config.resetDelta s.resets)
    dlen := BitVec.ofNat 11 (Config.groupBytes * (Config.resetGroups s.resets).val)
    acc := Config.resetAcc s.resets
    bitcnt := BitVec.ofNat 4 (Config.resetBitcnt s.resets).val
    oidx := BitVec.ofNat 11 (Config.resetOidx s.resets).val
    blk := BitVec.ofNat 8 (Config.resetBlk s.resets).val
    force := Config.resetForce s.resets
    outcome := exitOfCode (Config.resetOutcome s.resets)
    pos := Config.resetPos s.resets
    proceed := Config.resetSignal s.resets 0
    shapeOk := Config.resetSignal s.resets 1
    changed := Config.resetSignal s.resets 2
    forced := Config.resetSignal s.resets 3
    included := Config.resetSignal s.resets 4
    empty := Config.resetSignal s.resets 5
    resets := s.resets + 1 }

/-- While `rst` is asserted RESET is what happens, whatever else would (R197, R222; log 16). -/
def unlessReset (k : State → Res) (s : State) : Res := if s.rst then .next (resetOp s) else k s

end Sys2Proof.Machine
end

