-- ==== Sys2Proof/Machine/Framer.lean ====
section
/-! DEFINITION. The wire-frame encoder (spec/44_wire_framer.md). -/

namespace Sys2Proof.Machine

/-- EMPTYCHK (R170). -/
def emptyChkOp (s : State) : State := { s with empty := emptyFlag s.dlen }

/-- The five TX calls of R171, around a payload. -/
def sendFrame (payload : List Byte) (s : State) : State :=
  txBytes [Config.term] (txBytes payload (txBytes (lengthField payload.length)
    (txBytes [Config.msgType] (txBytes [Config.sync0, Config.sync1] s))))

/-- FRAME (R171). DELTA has no byte at 1152 or above (R40). -/
def frameOp (s : State) : Res :=
  if s.dlen.toNat ≤ Config.deltaMax then .next (sendFrame (deltaPayload s) s) else .fault .deltaOverrun

/-- The meaning of EMPTYCHK. -/
def execEmptychk (s : State) : Res := .next (emptyChkOp s)

/-- The meaning of FRAME. -/
def execFrame (s : State) : Res := frameOp s

/-- The meaning of TX: its operand is the byte sequence the state holds for it (log 9). -/
def execTx (s : State) : Res := .next (txOp s)

/-- The meaning of WIRE (semantics rule R171): the frame that carries these groups is transmitted (log 8). -/
def execWire (gs : List Group) (s : State) : Res :=
  if wfPayload gs then .next (sendFrame (payloadBytes gs) s) else .fault .illFormed

end Sys2Proof.Machine
end

