-- ==== Sys2Proof/Machine/Gate.lean ====
section
/-! DEFINITION. The liveness gate (spec/41_liveness_gate.md). -/

namespace Sys2Proof.Machine

/-- GATE (R120): samples LINK(), reads and writes KEEPALIVE, sets `proceed`. -/
def gateOp (s : State) : State :=
  { s with
    keepalive := gateKeepalive s.linkPresent s.keepalive
    proceed := gateProceed s.linkPresent s.keepalive }

/-- The meaning of GATE. -/
def execGate (s : State) : Res := .next (gateOp s)

end Sys2Proof.Machine
end

