-- ==== Sys2Proof/Machine/Packer.lean ====
section
/-! DEFINITION. The bit-plane packer (spec/42_bitplane_packer.md). The loops over R, p and c are the counter `pos`: the call
order is the lexicographic order of (R, p, c) (R136), and {R, p, c} is one 13-bit number (R74). -/

namespace Sys2Proof.Machine

/-- FLUSH (R133). A byte beyond CUR has no defined effect (U4, U5). -/
def flushOp (s : State) : Res :=
  if s.oidx.toNat < Config.frameBytes then
    .next { s with cur := s.cur.write s.oidx.toNat s.acc, oidx := s.oidx + 1, acc := 0, bitcnt := 0 }
  else .fault .curOverrun

/-- The bit PACKBIT extracts (R132): `(SRC[R][c] >> p) & 1`. -/
def packedBit (s : State) : Byte :=
  (srcByte s (posRow s).toNat (posCol s).toNat >>> (posPlane s).toNat) &&& 1

/-- ACC and BITCNT with that bit placed at position BITCNT (R132). -/
def placeBit (s : State) : State :=
  { s with acc := s.acc ||| (packedBit s <<< s.bitcnt.toNat), bitcnt := s.bitcnt + 1 }

/-- PACKBIT (R132) at the position (R, p, c). -/
def packBitOp (s : State) : Res :=
  if (placeBit s).bitcnt = 8 then flushOp (placeBit s) else .next (placeBit s)

/-- PACKBIT, then the loops' next position. -/
def visitOp (s : State) : Res := andThen (packBitOp s) fun t => .next { t with pos := t.pos + 1 }

/-- PACKROW (R131): for p in 0 to 7, for c in 0 to 127, PACKBIT(R, p, c), with R that of the position. -/
def packRowOp (s : State) : Res :=
  times (Config.planes * Config.fbCols) visitOp { s with pos := rowStart (posRow s) }

/-- PFLUSH (R134): a partial byte left over is written as a final byte. -/
def pflushOp (s : State) : Res :=
  if s.bitcnt ≠ 0 then
    if s.oidx.toNat < Config.frameBytes then
      .next { s with cur := s.cur.write s.oidx.toNat s.acc, oidx := s.oidx + 1 }
    else .fault .curOverrun
  else .next s

/-- The registers PACK clears at its start (R16, R130). -/
def packInit (s : State) : State := { s with oidx := 0, acc := 0, bitcnt := 0, pos := 0 }

/-- PACK (R130): the rows in order, then PFLUSH. -/
def packOp (s : State) : Res := andThen (times (1 + Config.fbRows) packRowOp (packInit s)) pflushOp

/-- GUARD (R135). -/
def guardOp (s : State) : State := { s with shapeOk := shapeOkFlag s.oidx }

/-- The meaning of PACK. -/
def execPack (s : State) : Res := packOp s

/-- The meaning of PACKROW. -/
def execPackrow (s : State) : Res := packRowOp s

/-- The meaning of PACKBIT. -/
def execPackbit (s : State) : Res := packBitOp s

/-- The meaning of FLUSH. -/
def execFlush (s : State) : Res := flushOp s

/-- The meaning of PFLUSH. -/
def execPflush (s : State) : Res := pflushOp s

/-- The meaning of GUARD. -/
def execGuard (s : State) : Res := .next (guardOp s)

end Sys2Proof.Machine
end

