-- ==== Sys2Proof/Machine/Selector.lean ====
section
/-! DEFINITION. The block delta comparator and selector and the forced-refresh cursor (spec/43_delta_selector.md). -/

namespace Sys2Proof.Machine

/-- CMP8 (R151) of the block BLK. No rule says what an index of 128 or above compares (R52). -/
def cmp8Op (s : State) : Res :=
  if s.blk.toNat < Config.nBlocks then .next { s with changed := changedFlag s.cur s.prev s.blk.toNat }
  else .fault .blockOutOfRange

/-- SEL (R152) of the block BLK. -/
def selOp (s : State) : State :=
  { s with
    forced := forcedFlag s.blk s.cursor
    included := includeFlag s.changed (forcedFlag s.blk s.cursor) s.force }

/-- A group for block `b` with the bytes `data` is appended to DELTA, and PREV's block `b` takes them (R153, R76). -/
def emitGroupOp (b : Nat) (data : List Byte) (s : State) : Res :=
  if b < Config.nBlocks then
    if s.dlen.toNat + Config.groupBytes ≤ Config.deltaMax then
      .next { s with
        delta := s.delta.writeBytes s.dlen.toNat (BitVec.ofNat 8 b :: data)
        dlen := s.dlen + 9
        prev := s.prev.writeBytes (Config.blockBytes * b) data }
    else .fault .deltaOverrun
  else .fault .blockOutOfRange

/-- EMITBLK (R153) of the block BLK: its data are CUR's. -/
def emitBlkOp (s : State) : Res := emitGroupOp s.blk.toNat (blkOf s.cur s.blk.toNat) s

/-- One block of the pass (R150): CMP8, SEL, EMITBLK if included (else nothing, R154); then the next block. -/
def blockOp (s : State) : Res :=
  andThen (cmp8Op s) fun t =>
    andThen (if (selOp t).included then emitBlkOp (selOp t) else .next (selOp t)) fun u =>
      .next { u with blk := u.blk + 1 }

/-- ADVANCE (R160): 7-bit increment, 127 goes to 0. -/
def advanceOp (s : State) : State := { s with cursor := s.cursor + 1 }

/-- The registers the DELTA phase clears at its start (R16, R150). -/
def passInit (s : State) : State := { s with dlen := 0, blk := 0 }

/-- DPASS (R150): the 128-block pass, then ADVANCE. -/
def dpassOp (s : State) : Res :=
  andThen (times Config.nBlocks blockOp (passInit s)) fun t => .next (advanceOp t)

/-- The meaning of DPASS. -/
def execDpass (s : State) : Res := dpassOp s

/-- The meaning of CMP8. -/
def execCmp8 (s : State) : Res := cmp8Op s

/-- The meaning of SEL. -/
def execSel (s : State) : Res := .next (selOp s)

/-- The meaning of EMITBLK. -/
def execEmitblk (s : State) : Res := emitBlkOp s

/-- The meaning of ADVANCE. -/
def execAdvance (s : State) : Res := .next (advanceOp s)

/-- The meaning of GROUP (semantics rule R153): the group is appended and its block of PREV takes its data (log 8). -/
def execGroup (g : Group) (s : State) : Res :=
  if g.wf then emitGroupOp g.index.toNat g.data s else .fault .illFormed

end Sys2Proof.Machine
end

