-- ==== Sys2Proof/Machine/Invocation.lean ====
section
/-! DEFINITION. The two operations the environment can request (spec/40_shot_invocation.md): SHOT and RESET. -/

namespace Sys2Proof.Machine

/-- The transport framer's part of R101: nothing is sent where DELTA is empty. -/
def transmitPart (s : State) : Res :=
  if (emptyChkOp s).empty then .next (exitInvocation .skippedEmpty (emptyChkOp s))
  else andThen (frameOp (emptyChkOp s)) fun t => .next (exitInvocation .sent t)

/-- The delta encoder's part of R101 and what follows it. -/
def encodePart (s : State) : Res := andThen (dpassOp s) transmitPart

/-- The frame assembler's part of R101 and what follows it. -/
def assemblePart (s : State) : Res :=
  andThen (packOp s) fun t =>
    if (guardOp t).shapeOk then encodePart (guardOp t) else .next (exitInvocation .abortedShape (guardOp t))

/-- The liveness gate's part of R101 and what follows it. -/
def gatePart (s : State) : Res :=
  if (gateOp s).proceed then assemblePart (gateOp s) else .next (exitInvocation .suppressed (gateOp s))

/-- SHOT as one transition (R101). While PHASE is not IDLE it is no invocation: ignored and not queued (R105). -/
def shotOp (f : Bool) (s : State) : Res :=
  if s.phase = .idle then gatePart (acceptStart f s) else .next s

/-- The meaning of SHOT. -/
def execShot (f : Bool) (s : State) : Res := shotOp f s

/-- The meaning of RESET. -/
def execReset (s : State) : Res := .next (resetOp s)

end Sys2Proof.Machine
end

