-- ==== Sys2Proof/Machine/Dispatch.lean ====
section
/-! DEFINITION. The meaning of each operation of the opcode table, one arm each. -/

namespace Sys2Proof.Machine

def exec (i : Instr) (s : State) : Host.Outcome State Fault Refusal :=
  match i with
  | .shot f => Sys2Proof.Machine.execShot f s
  | .reset => Sys2Proof.Machine.execReset s
  | .gate => Sys2Proof.Machine.execGate s
  | .pack => Sys2Proof.Machine.execPack s
  | .packrow => Sys2Proof.Machine.execPackrow s
  | .packbit => Sys2Proof.Machine.execPackbit s
  | .flush => Sys2Proof.Machine.execFlush s
  | .pflush => Sys2Proof.Machine.execPflush s
  | .guard => Sys2Proof.Machine.execGuard s
  | .dpass => Sys2Proof.Machine.execDpass s
  | .cmp8 => Sys2Proof.Machine.execCmp8 s
  | .sel => Sys2Proof.Machine.execSel s
  | .emitblk => Sys2Proof.Machine.execEmitblk s
  | .advance => Sys2Proof.Machine.execAdvance s
  | .emptychk => Sys2Proof.Machine.execEmptychk s
  | .frame => Sys2Proof.Machine.execFrame s
  | .tx => Sys2Proof.Machine.execTx s
  | .group g => Sys2Proof.Machine.execGroup g s
  | .wire gs => Sys2Proof.Machine.execWire gs s

end Sys2Proof.Machine
end

