-- ==== Sys2Proof/Machine/Environment.lean ====
section
/-! DEFINITION. What the environment may do between moves of the block: the display subsystem's writes to the sources (which
the block only reads, spec/10_state.md R33), in the notation of spec/30_encoding.md R90. -/

namespace Sys2Proof.Machine

/-- PACK has read a source byte and has more to read: a source must not change now (R230). -/
def snapshotOpen (s : State) : Bool := decide (s.phase = .pack) && decide (s.pos ≠ 0)

/-- The display subsystem replaces the sources; refused while they are being read (U3, log 15). -/
def setSources (status fb : Memory) (s : State) : Res :=
  if snapshotOpen s then .refused .sourceChangedDuringPack else .next { s with status := status, fb := fb }

/-- `SRC STATUS[c] = v` (row 0), `SRC FB[r][c] = v` (row r + 1). -/
def setSrcByte (row : BitVec 3) (col : BitVec 7) (v : Byte) (s : State) : Res :=
  if row = 0 then setSources (s.status.write col.toNat v) s.fb s
  else setSources s.status (s.fb.write (Config.fbCols * (row.toNat - 1) + col.toNat) v) s

/-- `SRC STATUS[*] = v`, `SRC FB[r][*] = v`. -/
def setSrcRow (row : BitVec 3) (v : Byte) (s : State) : Res :=
  if row = 0 then setSources (s.status.writeBytes 0 (List.replicate Config.statusCols v)) s.fb s
  else setSources s.status (s.fb.writeBytes (Config.fbCols * (row.toNat - 1)) (List.replicate Config.fbCols v)) s

/-- `STATE CURSOR = n` (R90): the test harness builds a state with this cursor (R21). It is no stimulus: the block offers no
port to the cell (R232, U1). -/
def stateCursor (n : BitVec 7) (s : State) : State := { s with cursor := n }

/-- `STATE KEEPALIVE = n` (R90), likewise. -/
def stateKeepalive (n : BitVec 4) (s : State) : State := { s with keepalive := n }

/-- `SHOT force=f link=l` (R90): `link_present` takes its level, then the command word is presented. -/
def shotStatement (f l : Bool) : List Stimulus := [.link l, .command f]

/-- `RESET` (R90). -/
def resetStatement : List Stimulus := [.reset]

/-- `TICK` (R91). -/
def tickStatement : List Stimulus := shotStatement false true

/-- `TICK.NL` (R91). -/
def tickNoLinkStatement : List Stimulus := shotStatement false false

/-- `REFRESH` (R91). -/
def refreshStatement : List Stimulus := shotStatement true true

/-- `REFRESH.NL` (R91). -/
def refreshNoLinkStatement : List Stimulus := shotStatement true false

/-- `REPEAT n` (R91). -/
def repeatStatement (n : Nat) (body : List Stimulus) : List Stimulus := (List.replicate n body).flatten

end Sys2Proof.Machine
end

