-- ==== Sys2Proof/Machine/Ports.lean ====
section
/-! DEFINITION. The output ports of spec/10_state.md R30 that are views of the state, and the codes of R20 and R191. -/

namespace Sys2Proof.Machine

/-- The code of a PHASE (R20). -/
def Phase.code : Phase → BitVec 3
  | .idle => 0
  | .gate => 1
  | .pack => 2
  | .guard => 3
  | .delta => 4
  | .frame => 5

/-- The code of an OUTCOME (R19, R191). -/
def ExitCode.code : ExitCode → BitVec 2
  | .sent => 0
  | .suppressed => 1
  | .abortedShape => 2
  | .skippedEmpty => 3

/-- `busy`: PHASE is not IDLE. -/
def State.busy (s : State) : Bool := decide (s.phase ≠ .idle)

/-- `src_row`: the source row requested. -/
def State.srcRow (s : State) : BitVec 3 := posRow s

/-- `src_col`: the source column requested. -/
def State.srcCol (s : State) : BitVec 7 := posCol s

/-- `src_data` (R33): the byte the display subsystem holds at that row and column. -/
def State.srcData (s : State) : Byte := srcByte s s.srcRow.toNat s.srcCol.toNat

/-- The byte of the frame that is presented in PHASE = FRAME: the one after those already handed over (log 12). -/
def State.presented (s : State) : Option Byte :=
  if s.phase = .frame ∧ s.dlen ≠ 0 then (frameOf s)[s.tx.length]? else none

/-- `tx_valid`: a byte of the wire frame is presented. -/
def State.txValid (s : State) : Bool := s.presented.isSome

/-- `tx_data`: that byte (0 where none is presented). -/
def State.txData (s : State) : Byte := s.presented.getD 0

/-- `tx_last`: that byte is the terminator, the last of the frame. -/
def State.txLast (s : State) : Bool := s.txValid && decide (s.tx.length + 1 = (frameOf s).length)

/-- `outcome`: the OUTCOME register. -/
def State.outcomePort (s : State) : BitVec 2 := s.outcome.code

/-- The transport takes the byte presented: always, where the port has no `tx_ready` (R30, R234; log 13). -/
def State.txTaken (s : State) : Bool := s.txReady || !Config.txHasReady

end Sys2Proof.Machine
end

