-- ==== Sys2Proof/Machine/Sequencer.lean ====
section
/-! DEFINITION. The hard-wired sequencer (spec/10_state.md R20): what the block does by itself in each PHASE. One move is one
GATE, one PACKBIT (the last with PFLUSH), one GUARD, one block of the pass (the last with ADVANCE), or one byte of the frame
(log 11); no time is modelled (R240). -/

namespace Sys2Proof.Machine

/-- PHASE = IDLE: waits for a start; `done` was a pulse. The spec fixes no handshake of `start` (R30 calls it a request for one
invocation). MODEL's choice (DESIGN CHOICE, log 25): `start` is a LEVEL, looked at on every move in IDLE, so that one held at 1
over an exit or through `rst`, or raised while the block is busy and still at 1 at the exit, begins another invocation. -/
def idleMove (s : State) : State :=
  if s.start then acceptStart s.forcePin s else { s with done := false }

/-- PHASE = GATE: PACK if `proceed`, else IDLE with SUPPRESSED. -/
def gateMove (s : State) : State :=
  if (gateOp s).proceed then { packInit (gateOp s) with phase := .pack } else exitInvocation .suppressed (gateOp s)

/-- PHASE = PACK: one PACKBIT; after the last, (7, 7, 127), PFLUSH, and GUARD is next. -/
def packMove (s : State) : Res :=
  andThen (visitOp s) fun t =>
    if t.pos = 0 then andThen (pflushOp t) fun u => .next { u with phase := .guard } else .next t

/-- PHASE = GUARD: DELTA if `shape_ok`, else IDLE with ABORTED_SHAPE. -/
def guardMove (s : State) : State :=
  if (guardOp s).shapeOk then { passInit (guardOp s) with phase := .delta } else exitInvocation .abortedShape (guardOp s)

/-- PHASE = DELTA: one block; after the 128th, ADVANCE, and FRAME is next. -/
def deltaMove (s : State) : Res :=
  andThen (blockOp s) fun t =>
    if t.blk.toNat = Config.nBlocks then .next { advanceOp t with phase := .frame } else .next t

/-- The next byte of the frame: it waits until the transport takes it (R234), then it is handed over (R172); with the last
byte the invocation ends SENT. -/
def sendMove (s : State) : State :=
  match (frameOf s)[s.tx.length]? with
  | none => exitInvocation .sent s
  | some b =>
    if s.txTaken then
      if s.tx.length + 1 = (frameOf s).length then exitInvocation .sent (txBytes [b] s) else txBytes [b] s
    else s

/-- PHASE = FRAME: EMPTYCHK before the first byte (IDLE with SKIPPED_EMPTY), then the bytes of the frame. -/
def frameMove (s : State) : Res :=
  if Config.deltaMax < s.dlen.toNat then .fault .deltaOverrun
  else if s.tx = [] then
    if (emptyChkOp s).empty then .next (exitInvocation .skippedEmpty (emptyChkOp s)) else .next (sendMove (emptyChkOp s))
  else .next (sendMove s)

/-- What the sequencer does in each PHASE. `start` is looked at in IDLE only (R105; as a level: log 25). -/
def phaseMove (s : State) : Res :=
  match s.phase with
  | .idle => .next (idleMove s)
  | .gate => .next (gateMove s)
  | .pack => packMove s
  | .guard => .next (guardMove s)
  | .delta => deltaMove s
  | .frame => frameMove s

/-- One move. `rst` is honoured in every PHASE and wins over `start` (R197, R222). -/
def tick : State → Res := unlessReset phaseMove

end Sys2Proof.Machine
end

