-- ==== Sys2Proof/Machine/Step.lean ====
section
/-! DEFINITION. The step: it takes the environment's next stimulus (log 6), which is a request (SHOT as one transition, R101, or
RESET), or a change of an input; with none left it is one move of the sequencer. An operation that a test laid on the bench runs
first (log 26). -/

namespace Sys2Proof.Machine

/-- The operation on the test bench is decoded and runs (log 26). -/
def benchStep (f : Format) (bytes : List Byte) : State → Res :=
  unlessReset fun s =>
    match decode f bytes with
    | .ok i => exec i s
    | .error e => .refused (.undecodable e)

/-- What one stimulus does. -/
def stimulate (st : Stimulus) (s : State) : Res :=
  match st with
  | .command f => unlessReset (exec (.shot f)) s
  | .reset => exec .reset s
  | .pins r st f l rd =>
    tick { s with rst := r, start := st, forcePin := f, linkPresent := l, txReady := rd }
  | .link l => .next { s with linkPresent := l }
  | .srcZero => setSources [] [] s
  | .srcByte row col v => setSrcByte row col v s
  | .srcRow row v => setSrcRow row v s

/-- What the block does of itself: the next stimulus, or with none left one move under the pins as they stand. -/
def blockStep (s : State) : Res :=
  match s.stimuli with
  | [] => tick s
  | st :: rest => stimulate st { s with stimuli := rest }

/-- One step: the block's, unless a test laid an operation on the bench. -/
def step (s : State) : Host.Outcome State Fault Refusal :=
  match s.bench with
  | none => blockStep s
  | some (f, bytes) => benchStep f bytes { s with bench := none }

/-- `s` with the opcode-table row's bits on the test bench as the next operation, and `rst` not asserted (log 17, log 26). -/
def State.withFetchWord (s : State) (nbits w : Nat) : State :=
  { s with rst := false, bench := some (tableLayout nbits w) }

end Sys2Proof.Machine
end

