-- ==== Sys2Proof/Safety.lean ====
section
/-! DEFINITION. The terms claims are stated in: the invariants of spec/10_state.md R16, R22 and R40, the groups a pass selects
(spec/43_delta_selector.md R152, spec/30_encoding.md R77), and the mirror a receiver of the frames keeps
(spec/95_test_vectors.md section 5: a test aid, no part of the block). -/

namespace Sys2Proof.Machine

/-- What holds of every state at every step, whatever operation a test lays on the bench: each buffer is in canonical form and
lies inside its space (R40), and KEEPALIVE, OIDX, BLK and DLEN are in their ranges (R13, R15, R16; the ranges of CURSOR, ACC and
FORCE are their types). BITCNT is not among them: a PACKBIT that a test runs alone may take it past 8 (log 20). On the running
block its range is kept too: `SequenceInv`. -/
structure State.Inv (s : State) : Prop where
  prevWf : s.prev.wf = true
  curWf : s.cur.wf = true
  deltaWf : s.delta.wf = true
  statusWf : s.status.wf = true
  fbWf : s.fb.wf = true
  prevWithin : s.prev.within Config.frameBytes = true
  curWithin : s.cur.within Config.frameBytes = true
  deltaWithin : s.delta.within Config.deltaMax = true
  statusWithin : s.status.within Config.statusCols = true
  fbWithin : s.fb.within (Config.fbRows * Config.fbCols) = true
  keepaliveRange : s.keepalive.toNat ≤ 10
  oidxRange : s.oidx.toNat ≤ Config.frameBytes
  blkRange : s.blk.toNat ≤ Config.nBlocks
  dlenRange : s.dlen.toNat ≤ Config.deltaMax
  dlenGroups : s.dlen.toNat % Config.groupBytes = 0

/-- What holds of the running block, where the test bench is empty and so only the sequencer issues operations (R20, R73):
BITCNT is in its range (R16), in PACK the position counts the bits already placed (R136), in GUARD the frame is whole, in
DELTA the payload holds at most one group for each block examined and the forced block's group once it was examined (R161),
in FRAME the payload is not empty and the frame is not yet sent whole, and before FRAME nothing is sent (R66). -/
structure State.SequenceInv (s : State) : Prop where
  benchEmpty : s.bench = none
  bitcntRange : s.bitcnt.toNat ≤ 8
  nothingSent : s.phase ≠ .idle → s.phase ≠ .frame → s.tx = []
  packPlaced : s.phase = .pack → s.pos.toNat = 8 * s.oidx.toNat + s.bitcnt.toNat ∧ s.bitcnt.toNat < 8
  guardWhole : s.phase = .guard → s.oidx.toNat = Config.frameBytes
  deltaBlock : s.phase = .delta → s.blk.toNat < Config.nBlocks
  deltaPayload : s.phase = .delta → s.dlen.toNat ≤ Config.groupBytes * s.blk.toNat
  deltaForced : s.phase = .delta → s.cursor.toNat < s.blk.toNat → Config.groupBytes ≤ s.dlen.toNat
  framePayload : s.phase = .frame → Config.groupBytes ≤ s.dlen.toNat ∧ s.dlen.toNat ≤ Config.deltaMax
  frameSent : s.phase = .frame → s.tx.length < s.dlen.toNat + 6

/-- The next step is a move of the block, under the pins as they stand or as the environment drives them: no request, and no change
of another input. -/
def State.movesNext (s : State) : Bool :=
  match s.stimuli with
  | [] => true
  | .pins _ _ _ _ _ :: _ => true
  | _ => false

/-- The next step changes no source while PACK is reading them (R230). -/
def State.snapshotKept (s : State) : Bool :=
  match s.stimuli with
  | .srcZero :: _ => !snapshotOpen s
  | .srcByte _ _ _ :: _ => !snapshotOpen s
  | .srcRow _ _ :: _ => !snapshotOpen s
  | _ => true

/-- The five buffers are in canonical form. -/
def State.buffersWf (s : State) : Bool := s.prev.wf && s.cur.wf && s.delta.wf && s.status.wf && s.fb.wf

/-- Every byte of a 1024-byte frame agrees. -/
def sameFrame (a b : Memory) : Prop := ∀ i, i < Config.frameBytes → a.read i = b.read i

/-- `cur` holds the packed bitmap of the sources (R44): bit j of byte 128R + 16p + k is bit p of `SRC[R][8k + j]`. -/
def packedFrom (s : State) (cur : Memory) : Prop :=
  ∀ R p k j, R < 8 → p < 8 → k < 16 → j < 8 →
    (cur.read (128 * R + 16 * p + k)).getLsbD j = (srcByte s R (8 * k + j)).getLsbD p

/-- Block `b` is in the payload: it changed, or it is the forced block, or all blocks are refreshed (R152). -/
def selected (force : Bool) (cursor : BitVec 7) (cur prev : Memory) (b : Nat) : Bool :=
  decide (blkOf cur b ≠ blkOf prev b) || decide (b = cursor.toNat) || force

/-- The groups of a payload: the selected blocks in ascending order, each with the current frame's bytes (R76, R77). -/
def selectedGroups (force : Bool) (cursor : BitVec 7) (cur prev : Memory) : List Group :=
  ((List.range Config.nBlocks).filter (selected force cursor cur prev)).map fun b => ⟨BitVec.ofNat 8 b, blkOf cur b⟩

/-- The liveness gate lets an invocation from this state run (R121, R122). -/
def proceeds (link : Bool) (k : BitVec 4) : Bool := link || decide (2 ≤ k.toNat)

/-- One invocation with the inputs the environment gives it (R101, R196). -/
structure Invocation where
  force : Bool
  link : Bool
  status : Memory
  fb : Memory
  deriving DecidableEq, Repr

/-- SHOT under those inputs. -/
def invoke (v : Invocation) (s : State) : Res :=
  exec (.shot v.force) { s with linkPresent := v.link, status := v.status, fb := v.fb }

/-- A sequence of invocations, each complete before the next begins (R60). -/
def invocations : List Invocation → State → Res
  | [], s => .next s
  | v :: vs, s => andThen (invoke v s) (invocations vs)

/-- How many of a sequence of invocations reach the pass, from a value of KEEPALIVE (R120, R165). -/
def passes : List Invocation → BitVec 4 → Nat
  | [], _ => 0
  | v :: vs, k => (if proceeds v.link k then 1 else 0) + passes vs (gateKeepalive v.link k)

/-- The levels of the input pins at one move, `rst` low. -/
structure Pins where
  start : Bool
  force : Bool
  link : Bool
  ready : Bool
  deriving DecidableEq, Repr

/-- What the environment does when it drives them. -/
def Pins.stimulus (p : Pins) : Stimulus := .pins false p.start p.force p.link p.ready

/-- The state with the pins at those levels. -/
def State.atPins (s : State) (p : Pins) : State :=
  { s with rst := false, start := p.start, forcePin := p.force, linkPresent := p.link, txReady := p.ready }

/-- `n` steps of the block under an environment that drives the pins at every move and does nothing else. -/
def runDriven (env : Nat → Pins) (n : Nat) (s : State) : Res :=
  Host.Core.run Sys2Proof.core n { s with stimuli := (List.range n).map fun k => (env k).stimulus }

/-- The transport accepts every byte after a finite wait (R234, D17: weak fairness): it is ready again and again. -/
def fairTransport (env : Nat → Pins) : Prop := ∀ n, ∃ k, n ≤ k ∧ (env k).ready = true

/-- What a receiver's mirror holds after the groups of one frame: each group overwrites its block. -/
def mirrorApply (m : Memory) (gs : List Group) : Memory :=
  gs.foldl (fun m g => m.writeBytes (Config.blockBytes * g.index.toNat) g.data) m

/-- What a receiver's mirror holds after the bytes of one invocation: unchanged where they are no whole frame. -/
def mirrorReceive (m : Memory) (tx : List Byte) : Memory :=
  match decode .wire tx with
  | .ok (.wire gs) => mirrorApply m gs
  | _ => m

end Sys2Proof.Machine
end

