-- ==== Sys2Proof/Certificates/Slice0/Obligations.lean ====
section
/-! DEFINITION. The statements for the provers. Each docstring names the rule of spec/ it formalises, or the log entry of a
choice it rests on. -/

section
open Sys2Proof Sys2Proof.Machine

/-! ## Encodings (spec/30_encoding.md) -/

/-- Decode and encode agree on every well-formed instruction, with every operand at every value its encoding admits. -/
def Obligations.DecodingAnEncodingGivesTheInstruction : Prop :=
  ∀ i : Instr, i.wf = true → decode (encode i).1 (encode i).2 = .ok i

/-- Whatever the decoder accepts is well formed, and is the one encoding of what it gives. -/
def Obligations.EveryAcceptedWordIsItsInstructionsEncoding : Prop :=
  ∀ (f : Format) (bytes : List Byte) (i : Instr), decode f bytes = .ok i → i.wf = true ∧ encode i = (f, bytes)

/-- The frames the decoder takes are the set R89 spells out, no more and no fewer. -/
def Obligations.AcceptedFramesAreThoseTheBlockCanEmit : Prop :=
  ∀ bytes : List Byte,
    (∃ i, decode .wire bytes = .ok i) ↔
      ∃ gs : List Group, 1 ≤ gs.length ∧ gs.length ≤ 128 ∧
        (∀ g ∈ gs, g.index.toNat < 128 ∧ g.data.length = 8) ∧
        gs.Pairwise (fun g h => g.index.toNat < h.index.toNat) ∧
        bytes = [0xAA, 0x55, 0x02, BitVec.ofNat 8 (9 * gs.length / 256), BitVec.ofNat 8 (9 * gs.length % 256)]
          ++ gs.flatMap (fun g => g.index :: g.data) ++ [0x0A]

/-- Words written out from the spec's encodings decode to what they stand for (R71, R73, R76, R80). -/
def Obligations.SampleWordsDecodeAsTheSpecEncodesThem : Prop :=
  decode .cmd [0b00000001] = .ok (.shot true) ∧
  decode .pin [] = .ok .reset ∧
  decode .uop [0b00000011] = .ok .packbit ∧
  decode .uop [0b00001010] = .ok .emitblk ∧
  decode .uop [0b00001110] = .ok .tx ∧
  decode .uop [0b00001111] = .error .unusedTag ∧
  decode .group [0x0E, 0, 2, 0, 0, 0, 0, 0, 0] = .ok (.group ⟨14, [0, 2, 0, 0, 0, 0, 0, 0]⟩) ∧
  decode .wire [0xAA, 0x55, 0x02, 0x00, 0x09, 0x05, 1, 0, 0, 0, 0, 0, 0, 0, 0x0A]
    = .ok (.wire [⟨5, [1, 0, 0, 0, 0, 0, 0, 0]⟩])

/-! ## The step -/

/-- A step runs the decoded instruction: an operation on the test bench (log 26: this is how a test presents one), where `rst` is
low, is exec of what its encoding decodes to. On a running block the environment's command is exec of SHOT and its request for
RESET exec of RESET (R71, R72; log 6). Nothing is added around exec. -/
def Obligations.StepRunsThePresentedOperation : Prop :=
  (∀ (s : State) (f : Format) (bytes : List Byte) (i : Instr),
    s.bench = some (f, bytes) → s.rst = false → decode f bytes = .ok i → step s = exec i { s with bench := none }) ∧
  (∀ (s : State) (f : Bool) (rest : List Stimulus),
    s.bench = none → s.rst = false → s.stimuli = .command f :: rest → step s = exec (.shot f) { s with stimuli := rest }) ∧
  (∀ (s : State) (rest : List Stimulus),
    s.bench = none → s.stimuli = .reset :: rest → step s = exec .reset { s with stimuli := rest })

/-- The step after `withFetchWord` runs the instruction the table's word stands for (how the word is laid out: log 17). -/
def Obligations.StepRunsATableWord : Prop :=
  ∀ (s : State) (nbits w : Nat) (i : Instr), decodeTableWord nbits w = some i →
    step (s.withFetchWord nbits w) = exec i { s with rst := false, bench := none }

/-- Bytes on the test bench that encode no operation are refused by the decoder's name for what is wrong (R73, R86; log 18, log
26). -/
def Obligations.StepRefusesWhatDoesNotDecode : Prop :=
  ∀ (s : State) (f : Format) (bytes : List Byte) (e : DecodeError),
    s.bench = some (f, bytes) → s.rst = false → decode f bytes = .error e → step s = .refused (.undecodable e)

/-- The reset pin wins in every PHASE (R72, R197, R222): over `start`, over the move of the sequencer, over a command or an
operation on the bench in the same step (the last two are the model's choice, log 16). -/
def Obligations.ResetPinWinsInEveryPhase : Prop :=
  ∀ s : State,
    (∀ st f l rd rest, s.bench = none → s.stimuli = .pins true st f l rd :: rest →
      step s = exec .reset { s with rst := true, start := st, forcePin := f, linkPresent := l, txReady := rd, stimuli := rest }) ∧
    (s.rst = true → s.bench = none → s.stimuli = [] → step s = exec .reset s) ∧
    (∀ f rest, s.rst = true → s.bench = none → s.stimuli = .command f :: rest →
      step s = exec .reset { s with stimuli := rest }) ∧
    (∀ f bytes, s.rst = true → s.bench = some (f, bytes) → step s = exec .reset { s with bench := none })

/-! ## Reset (R34, R104, R220, R222) -/

/-- RESET completes in every state, mid-invocation too: PREV all zero, CURSOR 0, KEEPALIVE 10, IDLE, nothing presented or
transmitted, and what was sent stays sent. OUTCOME and the working registers are left free, so nothing is said of them. -/
def Obligations.ResetLeavesThePersistentCellsAtTheirResetValues : Prop :=
  ∀ s : State, ∃ t, exec .reset s = .next t ∧
    (∀ a, t.prev.read a = 0) ∧ t.cursor = 0 ∧ t.keepalive = 10 ∧ t.phase = .idle ∧
    t.busy = false ∧ t.txValid = false ∧ t.done = false ∧
    t.tx = s.tx ∧ t.stream = s.stream ∧ t.txArg = s.txArg ∧ t.stimuli = s.stimuli ∧ t.bench = s.bench ∧
    t.status = s.status ∧ t.fb = s.fb ∧
    t.rst = s.rst ∧ t.start = s.start ∧ t.forcePin = s.forcePin ∧ t.linkPresent = s.linkPresent ∧ t.txReady = s.txReady

/-- The machine right after reset (R34, R220); only the cells to which R34 gives a value. -/
def Obligations.TheResetStateHoldsTheSpecsResetValues : Prop :=
  (∀ a, State.reset.prev.read a = 0) ∧ State.reset.cursor = 0 ∧ State.reset.keepalive = 10 ∧ State.reset.phase = .idle ∧
    State.reset.busy = false ∧ State.reset.txValid = false ∧ State.reset.done = false ∧ State.reset.stream = []

/-! ## The liveness gate (spec/41_liveness_gate.md) -/

/-- R120: GATE's whole effect, and that an invocation the gate does not let proceed ends SUPPRESSED. `k` and `p` are fixed by
`link_present` and KEEPALIVE alone. -/
def Obligations.GateFollowsItsPolicy : Prop :=
  decode .uop [0] = .ok .gate ∧
  (∀ s : State, ∃ k p, exec .gate s = .next { s with keepalive := k, proceed := p } ∧
    (s.linkPresent = true → k = 10 ∧ p = true) ∧
    (s.linkPresent = false → 0 < s.keepalive.toNat →
      k.toNat = s.keepalive.toNat - 1 ∧ (p = true ↔ k.toNat ≠ 0)) ∧
    (s.linkPresent = false → s.keepalive.toNat = 0 → k = 0 ∧ p = false)) ∧
  (∀ (f : Bool) (s t : State), s.phase = .idle → exec .gate s = .next t → t.proceed = false →
    ∃ u, exec (.shot f) s = .next u ∧ u.outcome = .suppressed ∧ u.keepalive = t.keepalive)

/-- The document's timing property: from KEEPALIVE = 10 without the link exactly 9 invocations proceed; every later one is
suppressed, sends nothing and leaves CURSOR. -/
def Obligations.NineInvocationsProceedWithoutTheLink : Prop :=
  ∀ (f : Bool) (s : State), s.phase = .idle → s.linkPresent = false → s.keepalive = 10 →
    (∀ n, 1 ≤ n → n ≤ 9 → ∃ t, times n (exec (.shot f)) s = .next t ∧ t.keepalive.toNat = 10 - n ∧ t.outcome = .sent ∧
      t.cursor = s.cursor + BitVec.ofNat 7 n ∧ t.phase = .idle) ∧
    (∀ n, 10 ≤ n → ∃ u t, times 9 (exec (.shot f)) s = .next u ∧ times n (exec (.shot f)) s = .next t ∧
      t.keepalive = 0 ∧ t.outcome = .suppressed ∧ t.cursor = u.cursor ∧ t.stream = u.stream ∧ t.prev = u.prev)

/-! ## The packer (spec/42_bitplane_packer.md) -/

/-- PACKBIT: bit p of `SRC[R][c]` goes to bit BITCNT of ACC; the eighth bit flushes the byte. The position is the number
{R, p, c}. Beyond CUR the rules give no effect (U4, log 14); BITCNT above 7 shifts the bit out (R7, log 20). -/
def Obligations.PackbitPlacesOneSourceBit : Prop :=
  ∀ s : State, s.cur.wf = true →
    ∃ acc' : Byte,
      (∀ j, j < 8 → acc'.getLsbD j = (s.acc.getLsbD j || (decide (j = s.bitcnt.toNat) &&
        (srcByte s (s.pos.toNat / 1024) (s.pos.toNat % 128)).getLsbD (s.pos.toNat / 128 % 8)))) ∧
      (s.bitcnt.toNat ≠ 7 → exec .packbit s = .next { s with acc := acc', bitcnt := s.bitcnt + 1 }) ∧
      (s.bitcnt.toNat = 7 → s.oidx.toNat < 1024 → ∃ cur',
        exec .packbit s = .next { s with cur := cur', oidx := s.oidx + 1, acc := 0, bitcnt := 0 } ∧
        ∀ a, cur'.read a = if a = s.oidx.toNat then acc' else s.cur.read a) ∧
      (s.bitcnt.toNat = 7 → 1024 ≤ s.oidx.toNat → exec .packbit s = .fault .curOverrun)

/-- FLUSH: ACC goes to `CUR[OIDX]` and nowhere else; OIDX counts on; ACC and BITCNT are cleared. Beyond CUR: log 14. -/
def Obligations.FlushWritesOneByteOfCur : Prop :=
  ∀ s : State, s.cur.wf = true →
    (s.oidx.toNat < 1024 → ∃ cur',
      exec .flush s = .next { s with cur := cur', oidx := s.oidx + 1, acc := 0, bitcnt := 0 } ∧
      ∀ a, cur'.read a = if a = s.oidx.toNat then s.acc else s.cur.read a) ∧
    (1024 ≤ s.oidx.toNat → exec .flush s = .fault .curOverrun)

/-- PFLUSH: nothing where no partial byte is left over; else ACC goes to `CUR[OIDX]` and OIDX counts on. Beyond CUR: log 14. -/
def Obligations.PflushWritesAPartialByteOnly : Prop :=
  ∀ s : State, s.cur.wf = true →
    (s.bitcnt.toNat = 0 → exec .pflush s = .next s) ∧
    (s.bitcnt.toNat ≠ 0 → s.oidx.toNat < 1024 → ∃ cur',
      exec .pflush s = .next { s with cur := cur', oidx := s.oidx + 1 } ∧
      ∀ a, cur'.read a = if a = s.oidx.toNat then s.acc else s.cur.read a) ∧
    (s.bitcnt.toNat ≠ 0 → 1024 ≤ s.oidx.toNat → exec .pflush s = .fault .curOverrun)

/-- GUARD: `shape_ok` says whether the produced byte count is 1024, and nothing else changes. -/
def Obligations.GuardTestsTheProducedLength : Prop :=
  ∀ s : State, ∃ ok, exec .guard s = .next { s with shapeOk := ok } ∧ (ok = true ↔ s.oidx.toNat = 1024)

/-- PACKROW: exactly 128 bytes of CUR; from a byte boundary they are the row's planes in order, column 8k + j of plane p at bit
j of byte 16p + k. The position ends at the next row (log 10); a row that does not fit in CUR stops (log 14). -/
def Obligations.PackrowPacksOneRow : Prop :=
  ∀ s : State, s.cur.wf = true → s.bitcnt.toNat < 8 →
    (s.oidx.toNat + 128 ≤ 1024 → ∃ cur' acc',
      exec .packrow s = .next { s with
        cur := cur', acc := acc', oidx := s.oidx + 128, pos := BitVec.ofNat 13 (1024 * (s.pos.toNat / 1024 + 1)) } ∧
      (s.bitcnt.toNat = 0 → s.acc = 0 → acc' = 0 ∧
        ∀ p k j, p < 8 → k < 16 → j < 8 →
          (cur'.read (s.oidx.toNat + 16 * p + k)).getLsbD j =
            (srcByte s (s.pos.toNat / 1024) (8 * k + j)).getLsbD p) ∧
      ∀ a, a < s.oidx.toNat ∨ s.oidx.toNat + 128 ≤ a → cur'.read a = s.cur.read a) ∧
    (1024 < s.oidx.toNat + 128 → exec .packrow s = .fault .curOverrun)

/-- PACK computes the closed form of the layout: bit j of byte 128R + 16p + k is bit p of `SRC[R][8k + j]`; OIDX is 1024,
BITCNT and ACC are 0 (the spec derives this form from R130 to R133). That the position ends at 0 is the model's choice (log
10). -/
def Obligations.PackComputesTheFrameLayout : Prop :=
  ∀ s : State, s.cur.wf = true → ∃ cur',
    exec .pack s = .next { s with cur := cur', oidx := 1024, acc := 0, bitcnt := 0, pos := 0 } ∧
    packedFrom s cur' ∧
    ∀ a, 1024 ≤ a → cur'.read a = s.cur.read a

/-- The round trip: the source is recovered from the packed frame, so PACK loses nothing (the spec derives the second part). -/
def Obligations.PackLosesNothing : Prop :=
  (∀ s : State, s.cur.wf = true → ∃ t, exec .pack s = .next t ∧
    ∀ R c p, R < 8 → c < 128 → p < 8 →
      (srcByte s R c).getLsbD p = (t.cur.read (128 * R + 16 * p + c / 8)).getLsbD (c % 8)) ∧
  (∀ s u t v : State, s.cur.wf = true → u.cur.wf = true → exec .pack s = .next t → exec .pack u = .next v →
    sameFrame t.cur v.cur → ∀ R c, R < 8 → c < 128 → srcByte s R c = srcByte u R c)

/-- A block is one pixel line of 64 adjacent columns: b[6:4] is the source row, b[3:1] the plane, b[0] the half. -/
def Obligations.ABlockIsHalfAPixelLine : Prop :=
  ∀ s : State, s.cur.wf = true → ∃ t, exec .pack s = .next t ∧
    ∀ b m j, b < 128 → m < 8 → j < 8 →
      ((blkOf t.cur b).getD m 0).getLsbD j = (srcByte s (b / 16) (64 * (b % 2) + 8 * m + j)).getLsbD (b / 2 % 8)

/-! ## The comparator, the selector and the cursor (spec/43_delta_selector.md) -/

/-- CMP8: `changed` says whether one of the eight bytes differs. An index of 128 or above stops (log 14). -/
def Obligations.Cmp8DetectsAnyDifference : Prop :=
  ∀ s : State,
    (s.blk.toNat < 128 → ∃ c, exec .cmp8 s = .next { s with changed := c } ∧
      (c = true ↔ ∃ m, m < 8 ∧ s.cur.read (8 * s.blk.toNat + m) ≠ s.prev.read (8 * s.blk.toNat + m))) ∧
    (128 ≤ s.blk.toNat → exec .cmp8 s = .fault .blockOutOfRange)

/-- SEL: included if changed, or the forced block, or full refresh. -/
def Obligations.SelIncludesChangedForcedOrAll : Prop :=
  ∀ s : State, ∃ fo inc, exec .sel s = .next { s with forced := fo, included := inc } ∧
    (fo = true ↔ s.blk.toNat = s.cursor.toNat) ∧
    (inc = true ↔ s.changed = true ∨ fo = true ∨ s.force = true)

/-- EMITBLK: the index byte and CUR's eight bytes are appended to DELTA, DLEN grows by 9, PREV's block takes the same bytes,
and no other byte changes. Outside the buffers it stops (log 14). -/
def Obligations.EmitblkAppendsTheGroupAndUpdatesPrev : Prop :=
  ∀ s : State, s.delta.wf = true → s.prev.wf = true →
    (s.blk.toNat < 128 → s.dlen.toNat + 9 ≤ 1152 → ∃ d p,
      exec .emitblk s = .next { s with delta := d, dlen := s.dlen + 9, prev := p } ∧
      (∀ a, d.read a = if a = s.dlen.toNat then s.blk
        else if s.dlen.toNat < a ∧ a < s.dlen.toNat + 9 then s.cur.read (8 * s.blk.toNat + (a - s.dlen.toNat - 1))
        else s.delta.read a) ∧
      (∀ a, p.read a = if 8 * s.blk.toNat ≤ a ∧ a < 8 * s.blk.toNat + 8 then s.cur.read a else s.prev.read a)) ∧
    (128 ≤ s.blk.toNat → exec .emitblk s = .fault .blockOutOfRange) ∧
    (s.blk.toNat < 128 → 1152 < s.dlen.toNat + 9 → exec .emitblk s = .fault .deltaOverrun)

/-- GROUP, whose semantics rule in the table is EMITBLK's: the group's nine bytes are appended to DELTA and its block of PREV
takes its data (log 8 says why a data format has this effect). Ill-formed, or outside the buffers, it stops (log 14). -/
def Obligations.GroupAppendsItselfAndUpdatesPrev : Prop :=
  ∀ (g : Group) (s : State), s.delta.wf = true → s.prev.wf = true →
    (g.wf = true → s.dlen.toNat + 9 ≤ 1152 → ∃ d p,
      exec (.group g) s = .next { s with delta := d, dlen := s.dlen + 9, prev := p } ∧
      (∀ a, d.read a = if s.dlen.toNat ≤ a ∧ a < s.dlen.toNat + 9 then (g.index :: g.data).getD (a - s.dlen.toNat) 0
        else s.delta.read a) ∧
      (∀ a, p.read a = if 8 * g.index.toNat ≤ a ∧ a < 8 * g.index.toNat + 8 then g.data.getD (a - 8 * g.index.toNat) 0
        else s.prev.read a)) ∧
    (g.wf = true → 1152 < s.dlen.toNat + 9 → exec (.group g) s = .fault .deltaOverrun) ∧
    (g.wf = false → exec (.group g) s = .fault .illFormed)

/-- DPASS: the payload is the selected blocks in ascending order with CUR's bytes, at least one of them; afterwards PREV is CUR
in every byte of the frame; CURSOR advances by one; nothing else changes but the pass's own registers. That BLK ends at 128 is
the model's choice (log 10). -/
def Obligations.DpassEmitsExactlyTheSelectedBlocks : Prop :=
  ∀ s : State, s.prev.wf = true → s.delta.wf = true → ∃ t, exec .dpass s = .next t ∧
    deltaPayload t = payloadBytes (selectedGroups s.force s.cursor s.cur s.prev) ∧
    t.dlen.toNat = 9 * (selectedGroups s.force s.cursor s.cur s.prev).length ∧ 9 ≤ t.dlen.toNat ∧
    (∀ a, t.dlen.toNat ≤ a → t.delta.read a = s.delta.read a) ∧
    sameFrame t.prev s.cur ∧ (∀ a, 1024 ≤ a → t.prev.read a = s.prev.read a) ∧
    t.cursor = s.cursor + 1 ∧ t.blk = 128 ∧
    t = { s with prev := t.prev, delta := t.delta, dlen := t.dlen, blk := t.blk, changed := t.changed,
                 forced := t.forced, included := t.included, cursor := t.cursor }

/-- In the sequencer's pass a block that did not change, is not the forced block and is not refreshed costs nothing (R154): PREV,
DELTA and DLEN stay as they are. That one step is one block of the pass is the model's choice (log 11). -/
def Obligations.ABlockThatIsNotIncludedCostsNothing : Prop :=
  ∀ s : State, s.bench = none → s.stimuli = [] → s.rst = false → s.phase = .delta → s.blk.toNat < 128 →
    selected s.force s.cursor s.cur s.prev s.blk.toNat = false →
      ∃ t, step s = .next t ∧ t.prev = s.prev ∧ t.delta = s.delta ∧ t.dlen = s.dlen ∧ t.blk = s.blk + 1

/-- R160: ADVANCE steps CURSOR modulo 128, and it runs once in every invocation that reaches the DELTA phase and in no
other. -/
def Obligations.AdvanceStepsTheCursorOncePerEncodedInvocation : Prop :=
  decode .uop [11] = .ok .advance ∧
  (∀ s : State, ∃ c, exec .advance s = .next { s with cursor := c } ∧ c.toNat = (s.cursor.toNat + 1) % 128) ∧
  (∀ (f : Bool) (s t : State), s.phase = .idle → exec (.shot f) s = .next t →
    (t.outcome = .sent ∨ t.outcome = .skippedEmpty → t.cursor.toNat = (s.cursor.toNat + 1) % 128) ∧
    (t.outcome = .suppressed ∨ t.outcome = .abortedShape → t.cursor = s.cursor))

/-! ## The framer (spec/44_wire_framer.md) -/

/-- EMPTYCHK: `empty` says whether DLEN is 0, and nothing else changes. -/
def Obligations.EmptychkTestsThePayloadLength : Prop :=
  ∀ s : State, ∃ e, exec .emptychk s = .next { s with empty := e } ∧ (e = true ↔ s.dlen.toNat = 0)

/-- FRAME sends marker, type, big-endian length, the payload as it stands in DELTA and the terminator, DLEN + 6 bytes, and changes
no cell of the block (R171, R84, R85). The clause on `txArg`, the operand of the last TX, is the model's own (log 9), and so is
the stop at a DLEN beyond DELTA (log 14). -/
def Obligations.FrameSendsHeaderPayloadAndTerminator : Prop :=
  decode .uop [13] = .ok .frame ∧
  ∀ s : State,
    (s.dlen.toNat ≤ 1152 → ∃ bytes : List Byte,
      bytes = [0xAA, 0x55, 0x02, BitVec.ofNat 8 (s.dlen.toNat / 256), BitVec.ofNat 8 (s.dlen.toNat % 256)]
        ++ (List.range s.dlen.toNat).map (fun i => s.delta.read i) ++ [0x0A] ∧
      bytes.length = s.dlen.toNat + 6 ∧
      exec .frame s = .next { s with tx := s.tx ++ bytes, stream := s.stream ++ bytes, txArg := [0x0A] }) ∧
    (1152 < s.dlen.toNat → exec .frame s = .fault .deltaOverrun)

/-- TX: the bytes of its operand are appended, in order, to what is transmitted; nothing else changes (R172; log 9 names where
the operand stands). -/
def Obligations.TxAppendsItsOperand : Prop :=
  ∀ s : State, exec .tx s = .next { s with tx := s.tx ++ s.txArg, stream := s.stream ++ s.txArg }

/-- WIRE, whose semantics rule in the table is FRAME's: its frame is transmitted (log 8); ill-formed it stops (log 14). -/
def Obligations.WireTransmitsItsFrame : Prop :=
  ∀ (gs : List Group) (s : State),
    (wfPayload gs = true → exec (.wire gs) s = .next { s with
      tx := s.tx ++ (encode (.wire gs)).2, stream := s.stream ++ (encode (.wire gs)).2, txArg := [0x0A] }) ∧
    (wfPayload gs = false → exec (.wire gs) s = .fault .illFormed)

/-! ## The invocation (spec/40_shot_invocation.md) -/

/-- SHOT that the gate lets proceed: CUR is the packed bitmap, exactly one frame with the selected blocks is sent, PREV is CUR
afterwards, CURSOR advances by one, KEEPALIVE is as GATE leaves it, the outcome is SENT; the inputs are untouched. (CUR, DELTA,
DLEN and FORCE are read after the exit, where the model keeps them: log 21. That SHOT waits for no transport: log 13.) -/
def Obligations.ShotSendsTheSelectedBlocks : Prop :=
  ∀ (f : Bool) (s : State), s.phase = .idle → s.buffersWf = true → proceeds s.linkPresent s.keepalive = true →
    ∃ t gs, exec (.shot f) s = .next t ∧ gs = selectedGroups f s.cursor t.cur s.prev ∧ wfPayload gs = true ∧
      packedFrom s t.cur ∧ t.tx = (encode (.wire gs)).2 ∧ t.stream = s.stream ++ t.tx ∧ deltaPayload t = payloadBytes gs ∧
      sameFrame t.prev t.cur ∧
      (∀ a, 1024 ≤ a → t.prev.read a = s.prev.read a ∧ t.cur.read a = s.cur.read a) ∧
      (∀ a, t.dlen.toNat ≤ a → t.delta.read a = s.delta.read a) ∧
      t.cursor = s.cursor + 1 ∧ t.keepalive = (if s.linkPresent then 10 else s.keepalive - 1) ∧
      t.outcome = .sent ∧ t.done = true ∧ t.phase = .idle ∧ t.force = f ∧
      t.rst = s.rst ∧ t.start = s.start ∧ t.forcePin = s.forcePin ∧ t.linkPresent = s.linkPresent ∧ t.txReady = s.txReady ∧
      t.status = s.status ∧ t.fb = s.fb ∧ t.resets = s.resets ∧ t.stimuli = s.stimuli ∧
      t.bench = s.bench

/-- SHOT that the gate suppresses, whatever `force` is: KEEPALIVE is 0, nothing is sent, PREV and CURSOR and all the rest stay
(the working registers too: log 21). -/
def Obligations.ShotWithoutLinkAndGraceIsSuppressed : Prop :=
  ∀ (f : Bool) (s : State), s.phase = .idle → s.linkPresent = false → s.keepalive.toNat ≤ 1 →
    exec (.shot f) s = .next { s with
      force := f, tx := [], keepalive := 0, proceed := false, outcome := .suppressed, done := true }

/-- SHOT while an invocation is in progress is no invocation: ignored, not queued (the spec's decision D15). -/
def Obligations.ShotWhileBusyIsIgnored : Prop :=
  ∀ (f : Bool) (s : State), s.phase ≠ .idle → exec (.shot f) s = .next s

/-- Every invocation, as the one transition of R101, has an end, SENT or SUPPRESSED: the shape guard and the empty payload never
end one (the spec derives it). The premise of the transport's fairness (D17) does not stand here because this transition waits
for no transport, which is the model's choice (log 13). The end under that premise, byte by byte, is
SequencedInvocationsEndUnderAFairTransport. -/
def Obligations.EveryInvocationEndsSentOrSuppressed : Prop :=
  ∀ (f : Bool) (s : State), s.phase = .idle → ∃ t, exec (.shot f) s = .next t ∧ t.phase = .idle ∧ t.done = true ∧
    (t.outcome = .sent ∨ t.outcome = .suppressed) ∧
    (t.outcome = .suppressed ↔ s.linkPresent = false ∧ s.keepalive.toNat ≤ 1) ∧
    (t.outcome = .suppressed → t.stream = s.stream)

/-- The codes of OUTCOME (R19, R191) and of PHASE (R20), and what the ports show of them (R30): `outcome` reads the code, 0 after an
invocation that proceeds and 1 after a suppressed one, and `busy` is 0 at PHASE code 0 only. -/
def Obligations.ThePortsShowTheCodesOfOutcomeAndPhase : Prop :=
  (ExitCode.sent.code.toNat = 0 ∧ ExitCode.suppressed.code.toNat = 1 ∧ ExitCode.abortedShape.code.toNat = 2 ∧
    ExitCode.skippedEmpty.code.toNat = 3) ∧
  (Phase.idle.code.toNat = 0 ∧ Phase.gate.code.toNat = 1 ∧ Phase.pack.code.toNat = 2 ∧ Phase.guard.code.toNat = 3 ∧
    Phase.delta.code.toNat = 4 ∧ Phase.frame.code.toNat = 5) ∧
  (∀ s : State, s.outcomePort = s.outcome.code ∧ (s.busy = true ↔ s.phase.code.toNat ≠ 0)) ∧
  (∀ (f : Bool) (s : State), s.phase = .idle → ∃ t, exec (.shot f) s = .next t ∧ t.done = true ∧ t.busy = false ∧
    t.outcomePort.toNat = if proceeds s.linkPresent s.keepalive then 0 else 1)

/-- The document's end-to-end example (R175), for every packed frame that differs from an all-zero PREV in block 5 at most. (DLEN
is read after the exit, where the model keeps it: log 21.) -/
def Obligations.TheDocumentsEndToEndExample : Prop :=
  ∀ s : State, s.phase = .idle → s.buffersWf = true → s.linkPresent = true → s.cursor = 5 →
    (∀ a, s.prev.read a = 0) →
    (∀ R c p, R < 8 → c < 128 → p < 8 → (srcByte s R c).getLsbD p = true → 16 * R + 2 * p + c / 64 = 5) →
      ∃ t cur, packedFrom s cur ∧ exec (.shot false) s = .next t ∧ t.dlen = 9 ∧
        t.tx = [0xAA, 0x55, 0x02, 0x00, 0x09, 0x05] ++ (List.range 8).map (fun m => cur.read (40 + m)) ++ [0x0A] ∧
        (∀ m, m < 8 → t.prev.read (40 + m) = cur.read (40 + m)) ∧ t.cursor = 6 ∧ t.outcome = .sent

/-- Full refresh: 128 groups with indices 0 to 127 in order, 1158 bytes, PREV is the packed frame, and CURSOR advances by one. -/
def Obligations.FullRefreshSendsEveryBlock : Prop :=
  ∀ s : State, s.phase = .idle → s.buffersWf = true → proceeds s.linkPresent s.keepalive = true →
    ∃ t gs cur, packedFrom s cur ∧ exec (.shot true) s = .next t ∧ decode .wire t.tx = .ok (.wire gs) ∧
      gs.map (fun g => g.index.toNat) = List.range 128 ∧ t.tx.length = 1158 ∧
      sameFrame t.prev cur ∧ t.cursor = s.cursor + 1

/-- No change: an invocation whose frame equals PREV sends exactly one group, the forced block's, and leaves PREV's value. -/
def Obligations.AnUnchangedDisplaySendsTheForcedBlockOnly : Prop :=
  ∀ s : State, s.phase = .idle → s.buffersWf = true → proceeds s.linkPresent s.keepalive = true → packedFrom s s.prev →
    ∃ t, exec (.shot false) s = .next t ∧
      t.tx = [0xAA, 0x55, 0x02, 0x00, 0x09, s.cursor.setWidth 8] ++ blkOf s.prev s.cursor.toNat ++ [0x0A] ∧
      (∀ a, t.prev.read a = s.prev.read a) ∧ t.cursor = s.cursor + 1

/-- The forced sweep: over n invocations without real changes, invocation k sends block CURSOR + k alone; over 128 of them
every block index is the forced one exactly once and CURSOR is back where it started. -/
def Obligations.TheForcedSweepCoversEveryBlock : Prop :=
  ∀ (n : Nat) (s : State), s.phase = .idle → s.buffersWf = true → s.linkPresent = true → packedFrom s s.prev →
    ∃ t, times n (exec (.shot false)) s = .next t ∧
      t.cursor = s.cursor + BitVec.ofNat 7 n ∧ (∀ a, t.prev.read a = s.prev.read a) ∧
      t.stream = s.stream ++ (List.range n).flatMap (fun k =>
        [0xAA, 0x55, 0x02, 0x00, 0x09, BitVec.ofNat 8 ((s.cursor.toNat + k) % 128)]
          ++ blkOf s.prev ((s.cursor.toNat + k) % 128) ++ [0x0A]) ∧
      (n = 128 → t.cursor = s.cursor ∧ ∀ b, b < 128 → ∃ k, (k < 128 ∧ (s.cursor.toNat + k) % 128 = b) ∧
        ∀ k', k' < 128 → (s.cursor.toNat + k') % 128 = b → k' = k)

/-- The staleness bound: in any sequence of invocations of which at least 128 reach the pass, with the link or in the grace
without it, whatever the sources and `force` are at each, every block index is sent at least once. Suppressed invocations may
stand in between: they do not count. -/
def Obligations.EveryBlockIsSentWithinAnyHundredTwentyEightInvocations : Prop :=
  ∀ (vs : List Invocation) (s : State), s.phase = .idle → s.buffersWf = true → 128 ≤ passes vs s.keepalive →
    ∀ b, b < 128 →
      ∃ k u t gs, k < vs.length ∧ invocations (vs.take k) s = .next u ∧ invocations (vs.take (k + 1)) s = .next t ∧
        decode .wire t.tx = .ok (.wire gs) ∧ ∃ g ∈ gs, g.index.toNat = b

/-- A receiver's mirror that equals PREV before an invocation equals it afterwards, whatever the inputs: what is sent is
enough to follow PREV (the receiver is a test aid of the spec, no part of the block). With sources in canonical form the state
afterwards meets the premises again, so this chains from one invocation to the next. -/
def Obligations.AReceiversMirrorFollowsPrev : Prop :=
  ∀ (v : Invocation) (s : State) (m : Memory), s.phase = .idle → s.buffersWf = true → m.wf = true → sameFrame m s.prev →
    ∃ t, invoke v s = .next t ∧ t.phase = .idle ∧ (mirrorReceive m t.tx).wf = true ∧
      sameFrame (mirrorReceive m t.tx) t.prev ∧
      (v.status.wf = true → v.fb.wf = true → t.buffersWf = true)

/-- An invocation depends on earlier ones through PREV, CURSOR and KEEPALIVE only: two idle states that agree on these and on
the inputs send the same bytes, end the same way and leave the same three cells, whatever the working registers, OUTCOME and
FORCE hold. -/
def Obligations.InvocationsDependOnThePersistentCellsOnly : Prop :=
  ∀ (f : Bool) (s u : State), s.phase = .idle → u.phase = .idle → s.buffersWf = true → u.buffersWf = true →
    s.prev = u.prev → s.cursor = u.cursor → s.keepalive = u.keepalive →
    s.linkPresent = u.linkPresent → s.status = u.status → s.fb = u.fb →
      ∃ t v, exec (.shot f) s = .next t ∧ exec (.shot f) u = .next v ∧
        t.tx = v.tx ∧ t.outcome = v.outcome ∧ t.prev = v.prev ∧ t.cursor = v.cursor ∧ t.keepalive = v.keepalive

/-! ## The sequencer (spec/10_state.md R20) -/

/-- The sequencer, started by the pin and moved on step by step with a transport that is always ready, ends where SHOT's one
transition ends: in the same state, for every source, `force`, cursor and counter. (That both levels are modelled, and the size
of a move, is log 11.) -/
def Obligations.TheSequencedInvocationIsShot : Prop :=
  ∀ s : State, s.bench = none → s.phase = .idle → s.rst = false → s.start = true → s.stimuli = [] →
    (Config.txHasReady = false ∨ s.txReady = true) →
      ∃ n, Host.Core.run Sys2Proof.core n s = exec (.shot s.forcePin) s

/-- The same under any transport that accepts each byte after a finite wait (R234, D17), the other pins free while the block is
busy: the moves end in the state SHOT's one transition gives, but for the levels of the pins. `link_present` is the level at the
move of GATE, the second (log 11). -/
def Obligations.TheSequencedInvocationIsShotUnderAFairTransport : Prop :=
  ∀ (env : Nat → Pins) (s : State), s.bench = none → s.phase = .idle → (env 0).start = true → fairTransport env →
    ∃ n t, 2 ≤ n ∧ exec (.shot (env 0).force) { s with linkPresent := (env 1).link, stimuli := [] } = .next t ∧
      runDriven env n s = .next (t.atPins (env (n - 1)))

/-- The end of an invocation, stated under the transport's fairness as R234 and D17 ask: from every busy state of a running block,
if the transport accepts each byte after a finite wait and `rst` stays low, the block gets to the exit, SENT or SUPPRESSED, with
`done`, and it was busy at every move before. -/
def Obligations.SequencedInvocationsEndUnderAFairTransport : Prop :=
  ∀ (env : Nat → Pins) (s : State), s.SequenceInv → s.busy = true → fairTransport env →
    ∃ n t, runDriven env n s = .next t ∧ t.busy = false ∧ t.done = true ∧
      (t.outcome = .sent ∨ t.outcome = .suppressed) ∧
      ∀ m, m < n → ∃ u, runDriven env m s = .next u ∧ u.busy = true

/-- Without fairness there is no end and no time-out (R234): where the port has a `tx_ready` (open: log 13) and it is never 1, the
block stays in FRAME for ever, sends nothing, and PREV, CURSOR and KEEPALIVE stay as they are, already updated. -/
def Obligations.AnUnfairTransportHoldsTheBlockInFrame : Prop :=
  ∀ (env : Nat → Pins) (s : State), s.SequenceInv → s.phase = .frame → (∀ n, (env n).ready = false) →
    Config.txHasReady = false ∨
      ∀ n, ∃ t, runDriven env n s = .next t ∧ t.phase = .frame ∧ t.tx = s.tx ∧ t.stream = s.stream ∧
        t.prev = s.prev ∧ t.cursor = s.cursor ∧ t.keepalive = s.keepalive

/-- A running block never stops and never leaves its invariant, BITCNT's range among it, whatever the environment does, as long as
it changes no source while PACK reads it. That BITCNT is in its range of R16 right after RESET, where its value is free, is the
model's choice (log 3). -/
def Obligations.TheSequencerKeepsGoing : Prop :=
  ∀ s : State, s.SequenceInv → s.snapshotKept = true → ∃ t, step s = .next t ∧ t.SequenceInv

/-- A sequenced invocation that is not cut by RESET ends SENT from FRAME or SUPPRESSED from GATE, with `done`. -/
def Obligations.SequencedInvocationsEndSentOrSuppressed : Prop :=
  ∀ s t : State, s.SequenceInv → step s = .next t → s.busy = true → t.busy = false →
    t.resets = s.resets →
      t.done = true ∧ (s.phase = .frame ∧ t.outcome = .sent ∨ s.phase = .gate ∧ t.outcome = .suppressed)

/-- In FRAME the byte presented is handed over where the transport takes it, and where it does not the block waits, its state
unchanged (whether there is a `tx_ready` at all is open: log 13). In the first move EMPTYCHK writes its signal beside. That a step
hands over one byte, and that the exit is part of the last byte's move, is the model's choice (log 11). -/
def Obligations.FrameHandsOverOneByteOrWaits : Prop :=
  ∀ s : State, s.SequenceInv → s.stimuli = [] → s.rst = false → s.phase = .frame →
    ∃ t b, step s = .next t ∧ s.presented = some b ∧ s.txValid = true ∧
      (Config.txHasReady = false ∨ s.txReady = true →
        t.tx = s.tx ++ [b] ∧ t.stream = s.stream ++ [b] ∧ (t.phase = .idle ↔ s.txLast = true) ∧ t.prev = s.prev ∧
        t.cursor = s.cursor ∧ t.keepalive = s.keepalive) ∧
      (Config.txHasReady = true → s.txReady = false → t = { s with empty := t.empty } ∧ (s.tx ≠ [] → t = s))

/-- `start` while the block is busy changes nothing: the step's result is the same but for the level of the two pins (the
spec's decision D15). -/
def Obligations.StartIsIgnoredWhileBusy : Prop :=
  ∀ (s : State) (b f : Bool), s.bench = none → s.phase ≠ .idle → s.rst = false → s.stimuli = [] →
    step { s with start := b, forcePin := f } = andThen (step s) fun t => .next { t with start := b, forcePin := f }

/-! ## The whole machine -/

/-- Every step keeps the invariant, whatever operation a test lays on the bench: each buffer is canonical and inside its space, and
KEEPALIVE, OIDX, BLK and DLEN are in their ranges. BITCNT is left out, because a PACKBIT run alone may take it past 8 (log 20);
TheSequencerKeepsGoing keeps it at 8 or below on the running block. The other registers fill their widths. That OIDX, BLK and DLEN are in range right
after RESET, where their values are free, is the model's choice (log 3). -/
def Obligations.EveryStepKeepsTheInvariant : Prop :=
  ∀ s t : State, s.Inv → step s = .next t → t.Inv

/-- The reset state meets both invariants (its values of the cells R34 calls unspecified are log 2, its empty bench log 26). -/
def Obligations.TheResetStateMeetsTheInvariants : Prop :=
  State.reset.Inv ∧ State.reset.SequenceInv

/-- PREV, CURSOR and KEEPALIVE have no other writers than the rules name: PREV is EMITBLK's, CURSOR is ADVANCE's, KEEPALIVE is
GATE's, with what is composed of them, GROUP (log 8), and RESET. Of the sequencer's moves (log 11) those of DELTA alone change
PREV, the last of them CURSOR, and GATE's KEEPALIVE: none in IDLE, PACK, GUARD or FRAME. -/
def Obligations.OnlyTheirWritersChangeThePersistentCells : Prop :=
  (∀ (i : Instr) (s t : State), exec i s = .next t →
    (t.prev ≠ s.prev → (∃ f, i = .shot f) ∨ i = .reset ∨ i = .dpass ∨ i = .emitblk ∨ ∃ g, i = .group g) ∧
    (t.cursor ≠ s.cursor → (∃ f, i = .shot f) ∨ i = .reset ∨ i = .dpass ∨ i = .advance) ∧
    (t.keepalive ≠ s.keepalive → (∃ f, i = .shot f) ∨ i = .reset ∨ i = .gate)) ∧
  (∀ s t : State, s.rst = false → tick s = .next t →
    (t.prev ≠ s.prev → s.phase = .delta) ∧
    (t.cursor ≠ s.cursor → s.phase = .delta ∧ s.blk.toNat = 127 ∧ t.cursor = s.cursor + 1) ∧
    (t.keepalive ≠ s.keepalive → s.phase = .gate))

/-- The environment has two ways to the persistent cells and to the transmitted stream, RESET and SHOT (R21, R4): on a running
block a step changes PREV, CURSOR or KEEPALIVE only as RESET, to their reset values, as a move (log 11) of an invocation in
progress, or as a SHOT that is accepted in IDLE, and only a move in FRAME or such a SHOT transmits. A change of another input does
neither, in mid-invocation too. The reset values of CURSOR and KEEPALIVE are R104's, the spec's decisions D1 and D2 (log 1). No
step puts an operation on the test bench (log 26). -/
def Obligations.ResetAndShotAreTheOnlyWaysIn : Prop :=
  ∀ s t : State, s.bench = none → step s = .next t →
    t.bench = none ∧
    (t.prev ≠ s.prev ∨ t.cursor ≠ s.cursor ∨ t.keepalive ≠ s.keepalive →
      (t.resets = s.resets + 1 ∧ (∀ a, t.prev.read a = 0) ∧ t.cursor = 0 ∧ t.keepalive = 10) ∨
      (s.busy = true ∧ s.movesNext = true) ∨
      (s.phase = .idle ∧ ∃ f rest, s.stimuli = .command f :: rest)) ∧
    (t.stream ≠ s.stream →
      (s.phase = .frame ∧ s.movesNext = true) ∨ (s.phase = .idle ∧ ∃ f rest, s.stimuli = .command f :: rest))

/-- R33: the read port gives the byte the display subsystem holds at that row and column, and neither an operation nor a move of
the sequencer, the reads among them, writes a source. -/
def Obligations.TheBlockOnlyReadsTheSources : Prop :=
  (∀ s : State, s.srcData = if s.srcRow = 0 then s.status.read s.srcCol.toNat
    else s.fb.read (128 * (s.srcRow.toNat - 1) + s.srcCol.toNat)) ∧
  (∀ (i : Instr) (s t : State), exec i s = .next t ∨ tick s = .next t → t.status = s.status ∧ t.fb = s.fb)

/-- Neither an operation nor a move of the sequencer changes an input pin (that RESET leaves them too is log 5), what the
environment will do (log 6) or the test bench (log 26). -/
def Obligations.TheBlockLeavesItsInputPinsAlone : Prop :=
  ∀ (i : Instr) (s t : State), exec i s = .next t ∨ tick s = .next t →
    t.rst = s.rst ∧ t.start = s.start ∧ t.forcePin = s.forcePin ∧ t.linkPresent = s.linkPresent ∧ t.txReady = s.txReady ∧
    t.stimuli = s.stimuli ∧ t.bench = s.bench

/-- What was handed to the transport stays sent: the stream only grows, through RESET too. -/
def Obligations.TheStreamOnlyGrows : Prop :=
  ∀ s t : State, step s = .next t → ∃ bytes, t.stream = s.stream ++ bytes

/-- No operation is refused, and those that touch no buffer at an index of their own complete in every state. -/
def Obligations.OperationsCompleteWithoutRefusal : Prop :=
  (∀ (i : Instr) (s : State) (r : Refusal), exec i s ≠ .refused r) ∧
  (∀ (i : Instr) (s : State),
    (∃ f, i = .shot f) ∨ i = .reset ∨ i = .gate ∨ i = .pack ∨ i = .guard ∨ i = .dpass ∨ i = .sel ∨ i = .advance ∨
      i = .emptychk ∨ i = .tx → ∃ t, exec i s = .next t)

/-- The display subsystem's write of one source byte: it takes effect there and nowhere else, unless PACK is reading the
sources, where it is refused (U3; log 15). -/
def Obligations.ASourceByteChangesBetweenSnapshotsOnly : Prop :=
  ∀ (s : State) (row : BitVec 3) (col : BitVec 7) (v : Byte) (rest : List Stimulus),
    s.bench = none → s.status.wf = true → s.fb.wf = true → s.stimuli = .srcByte row col v :: rest →
      (s.phase = .pack ∧ s.pos ≠ 0 → step s = .refused .sourceChangedDuringPack) ∧
      (s.phase ≠ .pack ∨ s.pos = 0 → ∃ st fb,
        step s = .next { s with status := st, fb := fb, stimuli := rest } ∧
        ∀ R c, R < 8 → c < 128 → srcByte { s with status := st, fb := fb, stimuli := rest } R c =
          if R = row.toNat ∧ c = col.toNat then v else srcByte s R c)

end
end

