-- ==== Sys2Proof/Laws/Memory.lean ====
section
/-! SUPPORT. The laws of the byte buffers: a write is read back where it was made and nowhere else, and every operation keeps
the canonical form and the buffer's bound. -/

namespace Sys2Proof.Machine

/-- Every listed address is at least `n`. -/
def Memory.above (m : Memory) (n : Nat) : Prop := ∀ c ∈ m, n ≤ c.1

@[simp] theorem Memory.read_nil (a : Nat) : Memory.read [] a = 0 := rfl
@[simp] theorem Memory.wf_nil : Memory.wf [] = true := rfl
@[simp] theorem Memory.within_nil (n : Nat) : Memory.within [] n = true := rfl
@[simp] theorem Memory.writeBytes_nil (m : Memory) (a : Nat) : m.writeBytes a [] = m := rfl
@[simp] theorem Memory.writeBytes_cons (m : Memory) (a : Nat) (v : Byte) (vs : List Byte) :
    m.writeBytes a (v :: vs) = Memory.writeBytes (m.write a v) (a + 1) vs := rfl

theorem Memory.sorted_cons (c : Host.Cell) (m : Memory) :
    Memory.sorted (c :: m) = true ↔ Memory.above m (c.1 + 1) ∧ Memory.sorted m = true := by
  induction m generalizing c with
  | nil => simp [Memory.sorted, Memory.above]
  | cons d m ih =>
    simp only [Memory.sorted, Bool.and_eq_true, decide_eq_true_eq]
    constructor
    · rintro ⟨h, hs⟩
      refine ⟨?_, hs⟩
      intro e he
      rcases List.mem_cons.1 he with rfl | he
      · omega
      · have := ((ih d).1 hs).1 e he
        omega
    · rintro ⟨h, hs⟩
      exact ⟨by have := h d (List.mem_cons_self ..); omega, hs⟩

theorem Memory.wf_cons (c : Host.Cell) (m : Memory) :
    Memory.wf (c :: m) = true ↔ Memory.above m (c.1 + 1) ∧ c.2 ≠ 0 ∧ Memory.wf m = true := by
  simp only [Memory.wf, Bool.and_eq_true, Memory.sorted_cons, List.all_cons, decide_eq_true_eq]
  tauto

theorem Memory.read_of_above {m : Memory} {a : Nat} (h : Memory.above m (a + 1)) : m.read a = 0 := by
  induction m with
  | nil => rfl
  | cons c m ih =>
    have h1 := h c (List.mem_cons_self ..)
    have h2 : Memory.above m (a + 1) := fun e he => h e (List.mem_cons_of_mem _ he)
    obtain ⟨k, x⟩ := c
    have h1' : a + 1 ≤ k := h1
    simp only [Memory.read]
    rw [if_neg (by omega), ih h2]

/-- A write adds nothing but its own entry. -/
theorem Memory.mem_write {m : Memory} {a : Nat} {v : Byte} {c : Host.Cell} (hc : c ∈ m.write a v) :
    c ∈ m ∨ c.1 = a := by
  induction m with
  | nil =>
    simp only [Memory.write] at hc
    split at hc <;> simp_all
  | cons d m ih =>
    obtain ⟨k, x⟩ := d
    simp only [Memory.write] at hc
    split_ifs at hc
    · exact .inl hc
    · rcases List.mem_cons.1 hc with rfl | hc
      · exact .inr rfl
      · exact .inl hc
    · exact .inl (List.mem_cons_of_mem _ hc)
    · rcases List.mem_cons.1 hc with rfl | hc
      · exact .inr rfl
      · exact .inl (List.mem_cons_of_mem _ hc)
    · rcases List.mem_cons.1 hc with rfl | hc
      · exact .inl (List.mem_cons_self ..)
      · exact (ih hc).imp_left (List.mem_cons_of_mem _)

theorem Memory.write_above {m : Memory} {n a : Nat} (v : Byte) (h : Memory.above m n) (ha : n ≤ a) :
    Memory.above (m.write a v) n := by
  intro c hc
  rcases Memory.mem_write hc with hc | hc
  · exact h c hc
  · omega

/-- A write keeps the canonical form. -/
theorem Memory.write_wf {m : Memory} (a : Nat) (v : Byte) (h : m.wf = true) : (m.write a v).wf = true := by
  induction m with
  | nil =>
    simp only [Memory.write]
    split
    · rfl
    · rename_i hv
      simpa [Memory.wf_cons, Memory.above] using hv
  | cons c m ih =>
    obtain ⟨k, x⟩ := c
    obtain ⟨hk, hx, hm⟩ := (Memory.wf_cons _ _).1 h
    simp only [Memory.write]
    split_ifs with h1 h2 h3 h4
    · exact h
    · refine (Memory.wf_cons _ _).2 ⟨?_, h2, h⟩
      intro e he
      rcases List.mem_cons.1 he with rfl | he
      · exact h1
      · have := hk e he
        simp only at this ⊢
        omega
    · exact hm
    · subst h3
      exact (Memory.wf_cons _ _).2 ⟨hk, h4, hm⟩
    · exact (Memory.wf_cons _ _).2 ⟨Memory.write_above v hk (by simp only; omega), hx, ih hm⟩

/-- Read after write. -/
theorem Memory.read_write {m : Memory} (a : Nat) (v : Byte) (b : Nat) (h : m.wf = true) :
    (m.write a v).read b = if b = a then v else m.read b := by
  induction m with
  | nil =>
    simp only [Memory.write]
    split_ifs <;> simp_all [Memory.read]
    all_goals intro hab; simp_all
  | cons c m ih =>
    obtain ⟨k, x⟩ := c
    obtain ⟨hk, hx, hm⟩ := (Memory.wf_cons _ _).1 h
    have ih := ih hm
    simp only [Memory.write]
    by_cases h1 : a < k
    · rw [if_pos h1]
      have hz : Memory.read ((k, x) :: m) a = 0 := by
        apply Memory.read_of_above
        intro e he
        rcases List.mem_cons.1 he with rfl | he
        · exact h1
        · have := hk e he
          simp only at this
          omega
      by_cases hv : v = 0
      · rw [if_pos hv]
        by_cases hb : b = a
        · rw [if_pos hb, hb, hz, hv]
        · rw [if_neg hb]
      · rw [if_neg hv]
        by_cases hb : b = a
        · rw [if_pos hb, hb]; simp [Memory.read]
        · rw [if_neg hb]
          conv => lhs; unfold Memory.read
          rw [if_neg (Ne.symm hb)]
    · rw [if_neg h1]
      by_cases h2 : a = k
      · subst h2
        rw [if_pos rfl]
        by_cases hv : v = 0
        · rw [if_pos hv]
          by_cases hb : b = a
          · subst hb
            rw [if_pos rfl, Memory.read_of_above hk, hv]
          · rw [if_neg hb]
            simp only [Memory.read]
            rw [if_neg (Ne.symm hb)]
        · rw [if_neg hv]
          simp only [Memory.read]
          by_cases hb : b = a
          · rw [if_pos hb, if_pos hb.symm]
          · rw [if_neg hb, if_neg (Ne.symm hb), if_neg (Ne.symm hb)]
      · rw [if_neg h2]
        simp only [Memory.read, ih]
        by_cases hb : b = a
        · subst hb
          rw [if_neg (Ne.symm h2), if_pos rfl, if_pos rfl]
        · rw [if_neg hb, if_neg hb]

theorem Memory.read_write_same {m : Memory} (a : Nat) (v : Byte) (h : m.wf = true) : (m.write a v).read a = v := by
  rw [Memory.read_write a v a h, if_pos rfl]

theorem Memory.read_write_other {m : Memory} {a b : Nat} (v : Byte) (h : m.wf = true) (hb : b ≠ a) :
    (m.write a v).read b = m.read b := by
  rw [Memory.read_write a v b h, if_neg hb]

theorem Memory.writeBytes_wf {m : Memory} (a : Nat) (vs : List Byte) (h : m.wf = true) :
    (m.writeBytes a vs).wf = true := by
  induction vs generalizing m a with
  | nil => exact h
  | cons v vs ih => exact ih (a + 1) (Memory.write_wf a v h)

/-- Read after a write of several bytes. -/
theorem Memory.read_writeBytes {m : Memory} (a : Nat) (vs : List Byte) (b : Nat) (h : m.wf = true) :
    (m.writeBytes a vs).read b = if a ≤ b ∧ b < a + vs.length then vs.getD (b - a) 0 else m.read b := by
  induction vs generalizing m a with
  | nil =>
    rw [if_neg (by simp only [List.length_nil]; omega)]
    rfl
  | cons v vs ih =>
    rw [Memory.writeBytes_cons, ih (a + 1) (Memory.write_wf a v h), Memory.read_write a v b h]
    by_cases hb : b = a
    · subst hb
      rw [if_neg (by omega), if_pos rfl, if_pos (by simp only [List.length_cons]; omega)]
      simp
    · rw [if_neg hb]
      by_cases hin : a + 1 ≤ b ∧ b < a + 1 + vs.length
      · rw [if_pos hin, if_pos (by simp only [List.length_cons]; omega)]
        have : b - a = (b - (a + 1)) + 1 := by omega
        rw [this, List.getD_cons_succ]
      · rw [if_neg hin, if_neg (by simp only [List.length_cons]; omega)]

theorem Memory.within_iff (m : Memory) (n : Nat) : m.within n = true ↔ ∀ c ∈ m, c.1 < n := by
  simp [Memory.within]

/-- A write below the bound keeps the buffer inside it. -/
theorem Memory.write_within {m : Memory} {n a : Nat} (v : Byte) (h : m.within n = true) (ha : a < n) :
    (m.write a v).within n = true := by
  rw [Memory.within_iff] at *
  intro c hc
  rcases Memory.mem_write hc with hc | hc
  · exact h c hc
  · omega

theorem Memory.writeBytes_within {m : Memory} {n a : Nat} (vs : List Byte) (h : m.within n = true)
    (ha : a + vs.length ≤ n) : (m.writeBytes a vs).within n = true := by
  induction vs generalizing m a with
  | nil => exact h
  | cons v vs ih =>
    simp only [List.length_cons] at ha
    exact ih (Memory.write_within v h (by omega)) (by omega)

theorem Memory.tabulate_within (n : Nat) (f : Nat → Byte) : (Memory.tabulate n f).within n = true := by
  rw [Memory.within_iff]
  rintro ⟨k, x⟩ hc
  simp only [Memory.tabulate, List.mem_filter, List.mem_map, List.mem_range, Prod.mk.injEq] at hc
  obtain ⟨⟨i, hi, rfl, -⟩, -⟩ := hc
  exact hi

theorem Memory.wf_iff_pairwise (m : Memory) :
    m.wf = true ↔ List.Pairwise (fun c d => c.1 < d.1) m ∧ ∀ c ∈ m, c.2 ≠ 0 := by
  induction m with
  | nil => simp [Memory.wf, Memory.sorted]
  | cons c m ih =>
    rw [Memory.wf_cons, ih, List.pairwise_cons]
    simp only [Memory.above, List.mem_cons, forall_eq_or_imp, Nat.succ_le_iff]
    tauto

theorem Memory.tabulate_wf (n : Nat) (f : Nat → Byte) : (Memory.tabulate n f).wf = true := by
  rw [Memory.wf_iff_pairwise]
  constructor
  · refine List.Pairwise.filter _ (List.pairwise_map.2 ?_)
    simpa using List.pairwise_lt_range
  · intro c hc
    simpa using (List.mem_filter.1 hc).2

theorem Memory.read_eq_of_mem {m : Memory} {c : Host.Cell} (h : m.wf = true) (hc : c ∈ m) : m.read c.1 = c.2 := by
  induction m with
  | nil => simp at hc
  | cons d m ih =>
    obtain ⟨hk, -, hm⟩ := (Memory.wf_cons _ _).1 h
    obtain ⟨k, x⟩ := d
    rcases List.mem_cons.1 hc with rfl | hc
    · simp [Memory.read]
    · have := hk c hc
      simp only at this
      simp only [Memory.read]
      rw [if_neg (by omega), ih hm hc]

theorem Memory.read_of_forall_ne {m : Memory} {a : Nat} (h : ∀ c ∈ m, c.1 ≠ a) : m.read a = 0 := by
  induction m with
  | nil => rfl
  | cons d m ih =>
    obtain ⟨k, x⟩ := d
    simp only [Memory.read]
    rw [if_neg (h (k, x) (List.mem_cons_self ..)), ih fun c hc => h c (List.mem_cons_of_mem _ hc)]

/-- What a tabulated buffer reads as. -/
theorem Memory.read_tabulate (n : Nat) (f : Nat → Byte) (a : Nat) :
    (Memory.tabulate n f).read a = if a < n then f a else 0 := by
  by_cases h : a < n ∧ f a ≠ 0
  · have hm : (a, f a) ∈ Memory.tabulate n f := by
      refine List.mem_filter.2 ⟨List.mem_map.2 ⟨a, List.mem_range.2 h.1, rfl⟩, ?_⟩
      simpa using h.2
    rw [if_pos h.1]
    exact Memory.read_eq_of_mem (Memory.tabulate_wf n f) hm
  · have : (if a < n then f a else 0) = 0 := by
      split
      · by_contra hc
        exact h ⟨by assumption, hc⟩
      · rfl
    rw [this]
    apply Memory.read_of_forall_ne
    rintro ⟨k, x⟩ hc hk
    simp only [Memory.tabulate, List.mem_filter, List.mem_map, List.mem_range, Prod.mk.injEq, decide_eq_true_eq] at hc
    obtain ⟨⟨i, hi, rfl, rfl⟩, hx⟩ := hc
    simp only at hk hx
    subst hk
    exact h ⟨hi, hx⟩

end Sys2Proof.Machine
end

