-- ==== Sys2Proof/Laws/State.lean ====
section
/-! SUPPORT. One lemma for each field of State after each update of the shared operations, so that no later proof unfolds a
record update. For the cells RESET leaves free the value is the opaque one (log 3): nothing more is to be known of them. -/

namespace Sys2Proof.Machine

/-! `acceptStart` -/

@[simp] theorem acceptStart_prev (f : Bool) (s : State) : (acceptStart f s).prev = s.prev := rfl
@[simp] theorem acceptStart_cursor (f : Bool) (s : State) : (acceptStart f s).cursor = s.cursor := rfl
@[simp] theorem acceptStart_keepalive (f : Bool) (s : State) : (acceptStart f s).keepalive = s.keepalive := rfl
@[simp] theorem acceptStart_cur (f : Bool) (s : State) : (acceptStart f s).cur = s.cur := rfl
@[simp] theorem acceptStart_delta (f : Bool) (s : State) : (acceptStart f s).delta = s.delta := rfl
@[simp] theorem acceptStart_dlen (f : Bool) (s : State) : (acceptStart f s).dlen = s.dlen := rfl
@[simp] theorem acceptStart_acc (f : Bool) (s : State) : (acceptStart f s).acc = s.acc := rfl
@[simp] theorem acceptStart_bitcnt (f : Bool) (s : State) : (acceptStart f s).bitcnt = s.bitcnt := rfl
@[simp] theorem acceptStart_oidx (f : Bool) (s : State) : (acceptStart f s).oidx = s.oidx := rfl
@[simp] theorem acceptStart_blk (f : Bool) (s : State) : (acceptStart f s).blk = s.blk := rfl
@[simp] theorem acceptStart_force (f : Bool) (s : State) : (acceptStart f s).force = f := rfl
@[simp] theorem acceptStart_proceed (f : Bool) (s : State) : (acceptStart f s).proceed = s.proceed := rfl
@[simp] theorem acceptStart_shapeOk (f : Bool) (s : State) : (acceptStart f s).shapeOk = s.shapeOk := rfl
@[simp] theorem acceptStart_changed (f : Bool) (s : State) : (acceptStart f s).changed = s.changed := rfl
@[simp] theorem acceptStart_forced (f : Bool) (s : State) : (acceptStart f s).forced = s.forced := rfl
@[simp] theorem acceptStart_included (f : Bool) (s : State) : (acceptStart f s).included = s.included := rfl
@[simp] theorem acceptStart_empty (f : Bool) (s : State) : (acceptStart f s).empty = s.empty := rfl
@[simp] theorem acceptStart_phase (f : Bool) (s : State) : (acceptStart f s).phase = .gate := rfl
@[simp] theorem acceptStart_pos (f : Bool) (s : State) : (acceptStart f s).pos = s.pos := rfl
@[simp] theorem acceptStart_outcome (f : Bool) (s : State) : (acceptStart f s).outcome = s.outcome := rfl
@[simp] theorem acceptStart_done (f : Bool) (s : State) : (acceptStart f s).done = false := rfl
@[simp] theorem acceptStart_rst (f : Bool) (s : State) : (acceptStart f s).rst = s.rst := rfl
@[simp] theorem acceptStart_start (f : Bool) (s : State) : (acceptStart f s).start = s.start := rfl
@[simp] theorem acceptStart_forcePin (f : Bool) (s : State) : (acceptStart f s).forcePin = s.forcePin := rfl
@[simp] theorem acceptStart_linkPresent (f : Bool) (s : State) : (acceptStart f s).linkPresent = s.linkPresent := rfl
@[simp] theorem acceptStart_txReady (f : Bool) (s : State) : (acceptStart f s).txReady = s.txReady := rfl
@[simp] theorem acceptStart_status (f : Bool) (s : State) : (acceptStart f s).status = s.status := rfl
@[simp] theorem acceptStart_fb (f : Bool) (s : State) : (acceptStart f s).fb = s.fb := rfl
@[simp] theorem acceptStart_tx (f : Bool) (s : State) : (acceptStart f s).tx = [] := rfl
@[simp] theorem acceptStart_stream (f : Bool) (s : State) : (acceptStart f s).stream = s.stream := rfl
@[simp] theorem acceptStart_txArg (f : Bool) (s : State) : (acceptStart f s).txArg = s.txArg := rfl
@[simp] theorem acceptStart_resets (f : Bool) (s : State) : (acceptStart f s).resets = s.resets := rfl
@[simp] theorem acceptStart_stimuli (f : Bool) (s : State) : (acceptStart f s).stimuli = s.stimuli := rfl
@[simp] theorem acceptStart_bench (f : Bool) (s : State) : (acceptStart f s).bench = s.bench := rfl

/-! `exitInvocation` -/

@[simp] theorem exitInvocation_prev (c : ExitCode) (s : State) : (exitInvocation c s).prev = s.prev := rfl
@[simp] theorem exitInvocation_cursor (c : ExitCode) (s : State) : (exitInvocation c s).cursor = s.cursor := rfl
@[simp] theorem exitInvocation_keepalive (c : ExitCode) (s : State) : (exitInvocation c s).keepalive = s.keepalive := rfl
@[simp] theorem exitInvocation_cur (c : ExitCode) (s : State) : (exitInvocation c s).cur = s.cur := rfl
@[simp] theorem exitInvocation_delta (c : ExitCode) (s : State) : (exitInvocation c s).delta = s.delta := rfl
@[simp] theorem exitInvocation_dlen (c : ExitCode) (s : State) : (exitInvocation c s).dlen = s.dlen := rfl
@[simp] theorem exitInvocation_acc (c : ExitCode) (s : State) : (exitInvocation c s).acc = s.acc := rfl
@[simp] theorem exitInvocation_bitcnt (c : ExitCode) (s : State) : (exitInvocation c s).bitcnt = s.bitcnt := rfl
@[simp] theorem exitInvocation_oidx (c : ExitCode) (s : State) : (exitInvocation c s).oidx = s.oidx := rfl
@[simp] theorem exitInvocation_blk (c : ExitCode) (s : State) : (exitInvocation c s).blk = s.blk := rfl
@[simp] theorem exitInvocation_force (c : ExitCode) (s : State) : (exitInvocation c s).force = s.force := rfl
@[simp] theorem exitInvocation_proceed (c : ExitCode) (s : State) : (exitInvocation c s).proceed = s.proceed := rfl
@[simp] theorem exitInvocation_shapeOk (c : ExitCode) (s : State) : (exitInvocation c s).shapeOk = s.shapeOk := rfl
@[simp] theorem exitInvocation_changed (c : ExitCode) (s : State) : (exitInvocation c s).changed = s.changed := rfl
@[simp] theorem exitInvocation_forced (c : ExitCode) (s : State) : (exitInvocation c s).forced = s.forced := rfl
@[simp] theorem exitInvocation_included (c : ExitCode) (s : State) : (exitInvocation c s).included = s.included := rfl
@[simp] theorem exitInvocation_empty (c : ExitCode) (s : State) : (exitInvocation c s).empty = s.empty := rfl
@[simp] theorem exitInvocation_phase (c : ExitCode) (s : State) : (exitInvocation c s).phase = .idle := rfl
@[simp] theorem exitInvocation_pos (c : ExitCode) (s : State) : (exitInvocation c s).pos = s.pos := rfl
@[simp] theorem exitInvocation_outcome (c : ExitCode) (s : State) : (exitInvocation c s).outcome = c := rfl
@[simp] theorem exitInvocation_done (c : ExitCode) (s : State) : (exitInvocation c s).done = true := rfl
@[simp] theorem exitInvocation_rst (c : ExitCode) (s : State) : (exitInvocation c s).rst = s.rst := rfl
@[simp] theorem exitInvocation_start (c : ExitCode) (s : State) : (exitInvocation c s).start = s.start := rfl
@[simp] theorem exitInvocation_forcePin (c : ExitCode) (s : State) : (exitInvocation c s).forcePin = s.forcePin := rfl
@[simp] theorem exitInvocation_linkPresent (c : ExitCode) (s : State) : (exitInvocation c s).linkPresent = s.linkPresent := rfl
@[simp] theorem exitInvocation_txReady (c : ExitCode) (s : State) : (exitInvocation c s).txReady = s.txReady := rfl
@[simp] theorem exitInvocation_status (c : ExitCode) (s : State) : (exitInvocation c s).status = s.status := rfl
@[simp] theorem exitInvocation_fb (c : ExitCode) (s : State) : (exitInvocation c s).fb = s.fb := rfl
@[simp] theorem exitInvocation_tx (c : ExitCode) (s : State) : (exitInvocation c s).tx = s.tx := rfl
@[simp] theorem exitInvocation_stream (c : ExitCode) (s : State) : (exitInvocation c s).stream = s.stream := rfl
@[simp] theorem exitInvocation_txArg (c : ExitCode) (s : State) : (exitInvocation c s).txArg = s.txArg := rfl
@[simp] theorem exitInvocation_resets (c : ExitCode) (s : State) : (exitInvocation c s).resets = s.resets := rfl
@[simp] theorem exitInvocation_stimuli (c : ExitCode) (s : State) : (exitInvocation c s).stimuli = s.stimuli := rfl
@[simp] theorem exitInvocation_bench (c : ExitCode) (s : State) : (exitInvocation c s).bench = s.bench := rfl

/-! `txOp` -/

@[simp] theorem txOp_prev (s : State) : (txOp s).prev = s.prev := rfl
@[simp] theorem txOp_cursor (s : State) : (txOp s).cursor = s.cursor := rfl
@[simp] theorem txOp_keepalive (s : State) : (txOp s).keepalive = s.keepalive := rfl
@[simp] theorem txOp_cur (s : State) : (txOp s).cur = s.cur := rfl
@[simp] theorem txOp_delta (s : State) : (txOp s).delta = s.delta := rfl
@[simp] theorem txOp_dlen (s : State) : (txOp s).dlen = s.dlen := rfl
@[simp] theorem txOp_acc (s : State) : (txOp s).acc = s.acc := rfl
@[simp] theorem txOp_bitcnt (s : State) : (txOp s).bitcnt = s.bitcnt := rfl
@[simp] theorem txOp_oidx (s : State) : (txOp s).oidx = s.oidx := rfl
@[simp] theorem txOp_blk (s : State) : (txOp s).blk = s.blk := rfl
@[simp] theorem txOp_force (s : State) : (txOp s).force = s.force := rfl
@[simp] theorem txOp_proceed (s : State) : (txOp s).proceed = s.proceed := rfl
@[simp] theorem txOp_shapeOk (s : State) : (txOp s).shapeOk = s.shapeOk := rfl
@[simp] theorem txOp_changed (s : State) : (txOp s).changed = s.changed := rfl
@[simp] theorem txOp_forced (s : State) : (txOp s).forced = s.forced := rfl
@[simp] theorem txOp_included (s : State) : (txOp s).included = s.included := rfl
@[simp] theorem txOp_empty (s : State) : (txOp s).empty = s.empty := rfl
@[simp] theorem txOp_phase (s : State) : (txOp s).phase = s.phase := rfl
@[simp] theorem txOp_pos (s : State) : (txOp s).pos = s.pos := rfl
@[simp] theorem txOp_outcome (s : State) : (txOp s).outcome = s.outcome := rfl
@[simp] theorem txOp_done (s : State) : (txOp s).done = s.done := rfl
@[simp] theorem txOp_rst (s : State) : (txOp s).rst = s.rst := rfl
@[simp] theorem txOp_start (s : State) : (txOp s).start = s.start := rfl
@[simp] theorem txOp_forcePin (s : State) : (txOp s).forcePin = s.forcePin := rfl
@[simp] theorem txOp_linkPresent (s : State) : (txOp s).linkPresent = s.linkPresent := rfl
@[simp] theorem txOp_txReady (s : State) : (txOp s).txReady = s.txReady := rfl
@[simp] theorem txOp_status (s : State) : (txOp s).status = s.status := rfl
@[simp] theorem txOp_fb (s : State) : (txOp s).fb = s.fb := rfl
@[simp] theorem txOp_tx (s : State) : (txOp s).tx = s.tx ++ s.txArg := rfl
@[simp] theorem txOp_stream (s : State) : (txOp s).stream = s.stream ++ s.txArg := rfl
@[simp] theorem txOp_txArg (s : State) : (txOp s).txArg = s.txArg := rfl
@[simp] theorem txOp_resets (s : State) : (txOp s).resets = s.resets := rfl
@[simp] theorem txOp_stimuli (s : State) : (txOp s).stimuli = s.stimuli := rfl
@[simp] theorem txOp_bench (s : State) : (txOp s).bench = s.bench := rfl

/-! `txBytes` -/

@[simp] theorem txBytes_prev (bs : List Byte) (s : State) : (txBytes bs s).prev = s.prev := rfl
@[simp] theorem txBytes_cursor (bs : List Byte) (s : State) : (txBytes bs s).cursor = s.cursor := rfl
@[simp] theorem txBytes_keepalive (bs : List Byte) (s : State) : (txBytes bs s).keepalive = s.keepalive := rfl
@[simp] theorem txBytes_cur (bs : List Byte) (s : State) : (txBytes bs s).cur = s.cur := rfl
@[simp] theorem txBytes_delta (bs : List Byte) (s : State) : (txBytes bs s).delta = s.delta := rfl
@[simp] theorem txBytes_dlen (bs : List Byte) (s : State) : (txBytes bs s).dlen = s.dlen := rfl
@[simp] theorem txBytes_acc (bs : List Byte) (s : State) : (txBytes bs s).acc = s.acc := rfl
@[simp] theorem txBytes_bitcnt (bs : List Byte) (s : State) : (txBytes bs s).bitcnt = s.bitcnt := rfl
@[simp] theorem txBytes_oidx (bs : List Byte) (s : State) : (txBytes bs s).oidx = s.oidx := rfl
@[simp] theorem txBytes_blk (bs : List Byte) (s : State) : (txBytes bs s).blk = s.blk := rfl
@[simp] theorem txBytes_force (bs : List Byte) (s : State) : (txBytes bs s).force = s.force := rfl
@[simp] theorem txBytes_proceed (bs : List Byte) (s : State) : (txBytes bs s).proceed = s.proceed := rfl
@[simp] theorem txBytes_shapeOk (bs : List Byte) (s : State) : (txBytes bs s).shapeOk = s.shapeOk := rfl
@[simp] theorem txBytes_changed (bs : List Byte) (s : State) : (txBytes bs s).changed = s.changed := rfl
@[simp] theorem txBytes_forced (bs : List Byte) (s : State) : (txBytes bs s).forced = s.forced := rfl
@[simp] theorem txBytes_included (bs : List Byte) (s : State) : (txBytes bs s).included = s.included := rfl
@[simp] theorem txBytes_empty (bs : List Byte) (s : State) : (txBytes bs s).empty = s.empty := rfl
@[simp] theorem txBytes_phase (bs : List Byte) (s : State) : (txBytes bs s).phase = s.phase := rfl
@[simp] theorem txBytes_pos (bs : List Byte) (s : State) : (txBytes bs s).pos = s.pos := rfl
@[simp] theorem txBytes_outcome (bs : List Byte) (s : State) : (txBytes bs s).outcome = s.outcome := rfl
@[simp] theorem txBytes_done (bs : List Byte) (s : State) : (txBytes bs s).done = s.done := rfl
@[simp] theorem txBytes_rst (bs : List Byte) (s : State) : (txBytes bs s).rst = s.rst := rfl
@[simp] theorem txBytes_start (bs : List Byte) (s : State) : (txBytes bs s).start = s.start := rfl
@[simp] theorem txBytes_forcePin (bs : List Byte) (s : State) : (txBytes bs s).forcePin = s.forcePin := rfl
@[simp] theorem txBytes_linkPresent (bs : List Byte) (s : State) : (txBytes bs s).linkPresent = s.linkPresent := rfl
@[simp] theorem txBytes_txReady (bs : List Byte) (s : State) : (txBytes bs s).txReady = s.txReady := rfl
@[simp] theorem txBytes_status (bs : List Byte) (s : State) : (txBytes bs s).status = s.status := rfl
@[simp] theorem txBytes_fb (bs : List Byte) (s : State) : (txBytes bs s).fb = s.fb := rfl
@[simp] theorem txBytes_tx (bs : List Byte) (s : State) : (txBytes bs s).tx = s.tx ++ bs := rfl
@[simp] theorem txBytes_stream (bs : List Byte) (s : State) : (txBytes bs s).stream = s.stream ++ bs := rfl
@[simp] theorem txBytes_txArg (bs : List Byte) (s : State) : (txBytes bs s).txArg = bs := rfl
@[simp] theorem txBytes_resets (bs : List Byte) (s : State) : (txBytes bs s).resets = s.resets := rfl
@[simp] theorem txBytes_stimuli (bs : List Byte) (s : State) : (txBytes bs s).stimuli = s.stimuli := rfl
@[simp] theorem txBytes_bench (bs : List Byte) (s : State) : (txBytes bs s).bench = s.bench := rfl

/-! `gateOp` -/

@[simp] theorem gateOp_prev (s : State) : (gateOp s).prev = s.prev := rfl
@[simp] theorem gateOp_cursor (s : State) : (gateOp s).cursor = s.cursor := rfl
@[simp] theorem gateOp_keepalive (s : State) : (gateOp s).keepalive = gateKeepalive s.linkPresent s.keepalive := rfl
@[simp] theorem gateOp_cur (s : State) : (gateOp s).cur = s.cur := rfl
@[simp] theorem gateOp_delta (s : State) : (gateOp s).delta = s.delta := rfl
@[simp] theorem gateOp_dlen (s : State) : (gateOp s).dlen = s.dlen := rfl
@[simp] theorem gateOp_acc (s : State) : (gateOp s).acc = s.acc := rfl
@[simp] theorem gateOp_bitcnt (s : State) : (gateOp s).bitcnt = s.bitcnt := rfl
@[simp] theorem gateOp_oidx (s : State) : (gateOp s).oidx = s.oidx := rfl
@[simp] theorem gateOp_blk (s : State) : (gateOp s).blk = s.blk := rfl
@[simp] theorem gateOp_force (s : State) : (gateOp s).force = s.force := rfl
@[simp] theorem gateOp_proceed (s : State) : (gateOp s).proceed = gateProceed s.linkPresent s.keepalive := rfl
@[simp] theorem gateOp_shapeOk (s : State) : (gateOp s).shapeOk = s.shapeOk := rfl
@[simp] theorem gateOp_changed (s : State) : (gateOp s).changed = s.changed := rfl
@[simp] theorem gateOp_forced (s : State) : (gateOp s).forced = s.forced := rfl
@[simp] theorem gateOp_included (s : State) : (gateOp s).included = s.included := rfl
@[simp] theorem gateOp_empty (s : State) : (gateOp s).empty = s.empty := rfl
@[simp] theorem gateOp_phase (s : State) : (gateOp s).phase = s.phase := rfl
@[simp] theorem gateOp_pos (s : State) : (gateOp s).pos = s.pos := rfl
@[simp] theorem gateOp_outcome (s : State) : (gateOp s).outcome = s.outcome := rfl
@[simp] theorem gateOp_done (s : State) : (gateOp s).done = s.done := rfl
@[simp] theorem gateOp_rst (s : State) : (gateOp s).rst = s.rst := rfl
@[simp] theorem gateOp_start (s : State) : (gateOp s).start = s.start := rfl
@[simp] theorem gateOp_forcePin (s : State) : (gateOp s).forcePin = s.forcePin := rfl
@[simp] theorem gateOp_linkPresent (s : State) : (gateOp s).linkPresent = s.linkPresent := rfl
@[simp] theorem gateOp_txReady (s : State) : (gateOp s).txReady = s.txReady := rfl
@[simp] theorem gateOp_status (s : State) : (gateOp s).status = s.status := rfl
@[simp] theorem gateOp_fb (s : State) : (gateOp s).fb = s.fb := rfl
@[simp] theorem gateOp_tx (s : State) : (gateOp s).tx = s.tx := rfl
@[simp] theorem gateOp_stream (s : State) : (gateOp s).stream = s.stream := rfl
@[simp] theorem gateOp_txArg (s : State) : (gateOp s).txArg = s.txArg := rfl
@[simp] theorem gateOp_resets (s : State) : (gateOp s).resets = s.resets := rfl
@[simp] theorem gateOp_stimuli (s : State) : (gateOp s).stimuli = s.stimuli := rfl
@[simp] theorem gateOp_bench (s : State) : (gateOp s).bench = s.bench := rfl

/-! `placeBit` -/

@[simp] theorem placeBit_prev (s : State) : (placeBit s).prev = s.prev := rfl
@[simp] theorem placeBit_cursor (s : State) : (placeBit s).cursor = s.cursor := rfl
@[simp] theorem placeBit_keepalive (s : State) : (placeBit s).keepalive = s.keepalive := rfl
@[simp] theorem placeBit_cur (s : State) : (placeBit s).cur = s.cur := rfl
@[simp] theorem placeBit_delta (s : State) : (placeBit s).delta = s.delta := rfl
@[simp] theorem placeBit_dlen (s : State) : (placeBit s).dlen = s.dlen := rfl
@[simp] theorem placeBit_acc (s : State) : (placeBit s).acc = s.acc ||| (packedBit s <<< s.bitcnt.toNat) := rfl
@[simp] theorem placeBit_bitcnt (s : State) : (placeBit s).bitcnt = s.bitcnt + 1 := rfl
@[simp] theorem placeBit_oidx (s : State) : (placeBit s).oidx = s.oidx := rfl
@[simp] theorem placeBit_blk (s : State) : (placeBit s).blk = s.blk := rfl
@[simp] theorem placeBit_force (s : State) : (placeBit s).force = s.force := rfl
@[simp] theorem placeBit_proceed (s : State) : (placeBit s).proceed = s.proceed := rfl
@[simp] theorem placeBit_shapeOk (s : State) : (placeBit s).shapeOk = s.shapeOk := rfl
@[simp] theorem placeBit_changed (s : State) : (placeBit s).changed = s.changed := rfl
@[simp] theorem placeBit_forced (s : State) : (placeBit s).forced = s.forced := rfl
@[simp] theorem placeBit_included (s : State) : (placeBit s).included = s.included := rfl
@[simp] theorem placeBit_empty (s : State) : (placeBit s).empty = s.empty := rfl
@[simp] theorem placeBit_phase (s : State) : (placeBit s).phase = s.phase := rfl
@[simp] theorem placeBit_pos (s : State) : (placeBit s).pos = s.pos := rfl
@[simp] theorem placeBit_outcome (s : State) : (placeBit s).outcome = s.outcome := rfl
@[simp] theorem placeBit_done (s : State) : (placeBit s).done = s.done := rfl
@[simp] theorem placeBit_rst (s : State) : (placeBit s).rst = s.rst := rfl
@[simp] theorem placeBit_start (s : State) : (placeBit s).start = s.start := rfl
@[simp] theorem placeBit_forcePin (s : State) : (placeBit s).forcePin = s.forcePin := rfl
@[simp] theorem placeBit_linkPresent (s : State) : (placeBit s).linkPresent = s.linkPresent := rfl
@[simp] theorem placeBit_txReady (s : State) : (placeBit s).txReady = s.txReady := rfl
@[simp] theorem placeBit_status (s : State) : (placeBit s).status = s.status := rfl
@[simp] theorem placeBit_fb (s : State) : (placeBit s).fb = s.fb := rfl
@[simp] theorem placeBit_tx (s : State) : (placeBit s).tx = s.tx := rfl
@[simp] theorem placeBit_stream (s : State) : (placeBit s).stream = s.stream := rfl
@[simp] theorem placeBit_txArg (s : State) : (placeBit s).txArg = s.txArg := rfl
@[simp] theorem placeBit_resets (s : State) : (placeBit s).resets = s.resets := rfl
@[simp] theorem placeBit_stimuli (s : State) : (placeBit s).stimuli = s.stimuli := rfl
@[simp] theorem placeBit_bench (s : State) : (placeBit s).bench = s.bench := rfl

/-! `packInit` -/

@[simp] theorem packInit_prev (s : State) : (packInit s).prev = s.prev := rfl
@[simp] theorem packInit_cursor (s : State) : (packInit s).cursor = s.cursor := rfl
@[simp] theorem packInit_keepalive (s : State) : (packInit s).keepalive = s.keepalive := rfl
@[simp] theorem packInit_cur (s : State) : (packInit s).cur = s.cur := rfl
@[simp] theorem packInit_delta (s : State) : (packInit s).delta = s.delta := rfl
@[simp] theorem packInit_dlen (s : State) : (packInit s).dlen = s.dlen := rfl
@[simp] theorem packInit_acc (s : State) : (packInit s).acc = 0 := rfl
@[simp] theorem packInit_bitcnt (s : State) : (packInit s).bitcnt = 0 := rfl
@[simp] theorem packInit_oidx (s : State) : (packInit s).oidx = 0 := rfl
@[simp] theorem packInit_blk (s : State) : (packInit s).blk = s.blk := rfl
@[simp] theorem packInit_force (s : State) : (packInit s).force = s.force := rfl
@[simp] theorem packInit_proceed (s : State) : (packInit s).proceed = s.proceed := rfl
@[simp] theorem packInit_shapeOk (s : State) : (packInit s).shapeOk = s.shapeOk := rfl
@[simp] theorem packInit_changed (s : State) : (packInit s).changed = s.changed := rfl
@[simp] theorem packInit_forced (s : State) : (packInit s).forced = s.forced := rfl
@[simp] theorem packInit_included (s : State) : (packInit s).included = s.included := rfl
@[simp] theorem packInit_empty (s : State) : (packInit s).empty = s.empty := rfl
@[simp] theorem packInit_phase (s : State) : (packInit s).phase = s.phase := rfl
@[simp] theorem packInit_pos (s : State) : (packInit s).pos = 0 := rfl
@[simp] theorem packInit_outcome (s : State) : (packInit s).outcome = s.outcome := rfl
@[simp] theorem packInit_done (s : State) : (packInit s).done = s.done := rfl
@[simp] theorem packInit_rst (s : State) : (packInit s).rst = s.rst := rfl
@[simp] theorem packInit_start (s : State) : (packInit s).start = s.start := rfl
@[simp] theorem packInit_forcePin (s : State) : (packInit s).forcePin = s.forcePin := rfl
@[simp] theorem packInit_linkPresent (s : State) : (packInit s).linkPresent = s.linkPresent := rfl
@[simp] theorem packInit_txReady (s : State) : (packInit s).txReady = s.txReady := rfl
@[simp] theorem packInit_status (s : State) : (packInit s).status = s.status := rfl
@[simp] theorem packInit_fb (s : State) : (packInit s).fb = s.fb := rfl
@[simp] theorem packInit_tx (s : State) : (packInit s).tx = s.tx := rfl
@[simp] theorem packInit_stream (s : State) : (packInit s).stream = s.stream := rfl
@[simp] theorem packInit_txArg (s : State) : (packInit s).txArg = s.txArg := rfl
@[simp] theorem packInit_resets (s : State) : (packInit s).resets = s.resets := rfl
@[simp] theorem packInit_stimuli (s : State) : (packInit s).stimuli = s.stimuli := rfl
@[simp] theorem packInit_bench (s : State) : (packInit s).bench = s.bench := rfl

/-! `guardOp` -/

@[simp] theorem guardOp_prev (s : State) : (guardOp s).prev = s.prev := rfl
@[simp] theorem guardOp_cursor (s : State) : (guardOp s).cursor = s.cursor := rfl
@[simp] theorem guardOp_keepalive (s : State) : (guardOp s).keepalive = s.keepalive := rfl
@[simp] theorem guardOp_cur (s : State) : (guardOp s).cur = s.cur := rfl
@[simp] theorem guardOp_delta (s : State) : (guardOp s).delta = s.delta := rfl
@[simp] theorem guardOp_dlen (s : State) : (guardOp s).dlen = s.dlen := rfl
@[simp] theorem guardOp_acc (s : State) : (guardOp s).acc = s.acc := rfl
@[simp] theorem guardOp_bitcnt (s : State) : (guardOp s).bitcnt = s.bitcnt := rfl
@[simp] theorem guardOp_oidx (s : State) : (guardOp s).oidx = s.oidx := rfl
@[simp] theorem guardOp_blk (s : State) : (guardOp s).blk = s.blk := rfl
@[simp] theorem guardOp_force (s : State) : (guardOp s).force = s.force := rfl
@[simp] theorem guardOp_proceed (s : State) : (guardOp s).proceed = s.proceed := rfl
@[simp] theorem guardOp_shapeOk (s : State) : (guardOp s).shapeOk = shapeOkFlag s.oidx := rfl
@[simp] theorem guardOp_changed (s : State) : (guardOp s).changed = s.changed := rfl
@[simp] theorem guardOp_forced (s : State) : (guardOp s).forced = s.forced := rfl
@[simp] theorem guardOp_included (s : State) : (guardOp s).included = s.included := rfl
@[simp] theorem guardOp_empty (s : State) : (guardOp s).empty = s.empty := rfl
@[simp] theorem guardOp_phase (s : State) : (guardOp s).phase = s.phase := rfl
@[simp] theorem guardOp_pos (s : State) : (guardOp s).pos = s.pos := rfl
@[simp] theorem guardOp_outcome (s : State) : (guardOp s).outcome = s.outcome := rfl
@[simp] theorem guardOp_done (s : State) : (guardOp s).done = s.done := rfl
@[simp] theorem guardOp_rst (s : State) : (guardOp s).rst = s.rst := rfl
@[simp] theorem guardOp_start (s : State) : (guardOp s).start = s.start := rfl
@[simp] theorem guardOp_forcePin (s : State) : (guardOp s).forcePin = s.forcePin := rfl
@[simp] theorem guardOp_linkPresent (s : State) : (guardOp s).linkPresent = s.linkPresent := rfl
@[simp] theorem guardOp_txReady (s : State) : (guardOp s).txReady = s.txReady := rfl
@[simp] theorem guardOp_status (s : State) : (guardOp s).status = s.status := rfl
@[simp] theorem guardOp_fb (s : State) : (guardOp s).fb = s.fb := rfl
@[simp] theorem guardOp_tx (s : State) : (guardOp s).tx = s.tx := rfl
@[simp] theorem guardOp_stream (s : State) : (guardOp s).stream = s.stream := rfl
@[simp] theorem guardOp_txArg (s : State) : (guardOp s).txArg = s.txArg := rfl
@[simp] theorem guardOp_resets (s : State) : (guardOp s).resets = s.resets := rfl
@[simp] theorem guardOp_stimuli (s : State) : (guardOp s).stimuli = s.stimuli := rfl
@[simp] theorem guardOp_bench (s : State) : (guardOp s).bench = s.bench := rfl

/-! `selOp` -/

@[simp] theorem selOp_prev (s : State) : (selOp s).prev = s.prev := rfl
@[simp] theorem selOp_cursor (s : State) : (selOp s).cursor = s.cursor := rfl
@[simp] theorem selOp_keepalive (s : State) : (selOp s).keepalive = s.keepalive := rfl
@[simp] theorem selOp_cur (s : State) : (selOp s).cur = s.cur := rfl
@[simp] theorem selOp_delta (s : State) : (selOp s).delta = s.delta := rfl
@[simp] theorem selOp_dlen (s : State) : (selOp s).dlen = s.dlen := rfl
@[simp] theorem selOp_acc (s : State) : (selOp s).acc = s.acc := rfl
@[simp] theorem selOp_bitcnt (s : State) : (selOp s).bitcnt = s.bitcnt := rfl
@[simp] theorem selOp_oidx (s : State) : (selOp s).oidx = s.oidx := rfl
@[simp] theorem selOp_blk (s : State) : (selOp s).blk = s.blk := rfl
@[simp] theorem selOp_force (s : State) : (selOp s).force = s.force := rfl
@[simp] theorem selOp_proceed (s : State) : (selOp s).proceed = s.proceed := rfl
@[simp] theorem selOp_shapeOk (s : State) : (selOp s).shapeOk = s.shapeOk := rfl
@[simp] theorem selOp_changed (s : State) : (selOp s).changed = s.changed := rfl
@[simp] theorem selOp_forced (s : State) : (selOp s).forced = forcedFlag s.blk s.cursor := rfl
@[simp] theorem selOp_included (s : State) : (selOp s).included = includeFlag s.changed (forcedFlag s.blk s.cursor) s.force := rfl
@[simp] theorem selOp_empty (s : State) : (selOp s).empty = s.empty := rfl
@[simp] theorem selOp_phase (s : State) : (selOp s).phase = s.phase := rfl
@[simp] theorem selOp_pos (s : State) : (selOp s).pos = s.pos := rfl
@[simp] theorem selOp_outcome (s : State) : (selOp s).outcome = s.outcome := rfl
@[simp] theorem selOp_done (s : State) : (selOp s).done = s.done := rfl
@[simp] theorem selOp_rst (s : State) : (selOp s).rst = s.rst := rfl
@[simp] theorem selOp_start (s : State) : (selOp s).start = s.start := rfl
@[simp] theorem selOp_forcePin (s : State) : (selOp s).forcePin = s.forcePin := rfl
@[simp] theorem selOp_linkPresent (s : State) : (selOp s).linkPresent = s.linkPresent := rfl
@[simp] theorem selOp_txReady (s : State) : (selOp s).txReady = s.txReady := rfl
@[simp] theorem selOp_status (s : State) : (selOp s).status = s.status := rfl
@[simp] theorem selOp_fb (s : State) : (selOp s).fb = s.fb := rfl
@[simp] theorem selOp_tx (s : State) : (selOp s).tx = s.tx := rfl
@[simp] theorem selOp_stream (s : State) : (selOp s).stream = s.stream := rfl
@[simp] theorem selOp_txArg (s : State) : (selOp s).txArg = s.txArg := rfl
@[simp] theorem selOp_resets (s : State) : (selOp s).resets = s.resets := rfl
@[simp] theorem selOp_stimuli (s : State) : (selOp s).stimuli = s.stimuli := rfl
@[simp] theorem selOp_bench (s : State) : (selOp s).bench = s.bench := rfl

/-! `advanceOp` -/

@[simp] theorem advanceOp_prev (s : State) : (advanceOp s).prev = s.prev := rfl
@[simp] theorem advanceOp_cursor (s : State) : (advanceOp s).cursor = s.cursor + 1 := rfl
@[simp] theorem advanceOp_keepalive (s : State) : (advanceOp s).keepalive = s.keepalive := rfl
@[simp] theorem advanceOp_cur (s : State) : (advanceOp s).cur = s.cur := rfl
@[simp] theorem advanceOp_delta (s : State) : (advanceOp s).delta = s.delta := rfl
@[simp] theorem advanceOp_dlen (s : State) : (advanceOp s).dlen = s.dlen := rfl
@[simp] theorem advanceOp_acc (s : State) : (advanceOp s).acc = s.acc := rfl
@[simp] theorem advanceOp_bitcnt (s : State) : (advanceOp s).bitcnt = s.bitcnt := rfl
@[simp] theorem advanceOp_oidx (s : State) : (advanceOp s).oidx = s.oidx := rfl
@[simp] theorem advanceOp_blk (s : State) : (advanceOp s).blk = s.blk := rfl
@[simp] theorem advanceOp_force (s : State) : (advanceOp s).force = s.force := rfl
@[simp] theorem advanceOp_proceed (s : State) : (advanceOp s).proceed = s.proceed := rfl
@[simp] theorem advanceOp_shapeOk (s : State) : (advanceOp s).shapeOk = s.shapeOk := rfl
@[simp] theorem advanceOp_changed (s : State) : (advanceOp s).changed = s.changed := rfl
@[simp] theorem advanceOp_forced (s : State) : (advanceOp s).forced = s.forced := rfl
@[simp] theorem advanceOp_included (s : State) : (advanceOp s).included = s.included := rfl
@[simp] theorem advanceOp_empty (s : State) : (advanceOp s).empty = s.empty := rfl
@[simp] theorem advanceOp_phase (s : State) : (advanceOp s).phase = s.phase := rfl
@[simp] theorem advanceOp_pos (s : State) : (advanceOp s).pos = s.pos := rfl
@[simp] theorem advanceOp_outcome (s : State) : (advanceOp s).outcome = s.outcome := rfl
@[simp] theorem advanceOp_done (s : State) : (advanceOp s).done = s.done := rfl
@[simp] theorem advanceOp_rst (s : State) : (advanceOp s).rst = s.rst := rfl
@[simp] theorem advanceOp_start (s : State) : (advanceOp s).start = s.start := rfl
@[simp] theorem advanceOp_forcePin (s : State) : (advanceOp s).forcePin = s.forcePin := rfl
@[simp] theorem advanceOp_linkPresent (s : State) : (advanceOp s).linkPresent = s.linkPresent := rfl
@[simp] theorem advanceOp_txReady (s : State) : (advanceOp s).txReady = s.txReady := rfl
@[simp] theorem advanceOp_status (s : State) : (advanceOp s).status = s.status := rfl
@[simp] theorem advanceOp_fb (s : State) : (advanceOp s).fb = s.fb := rfl
@[simp] theorem advanceOp_tx (s : State) : (advanceOp s).tx = s.tx := rfl
@[simp] theorem advanceOp_stream (s : State) : (advanceOp s).stream = s.stream := rfl
@[simp] theorem advanceOp_txArg (s : State) : (advanceOp s).txArg = s.txArg := rfl
@[simp] theorem advanceOp_resets (s : State) : (advanceOp s).resets = s.resets := rfl
@[simp] theorem advanceOp_stimuli (s : State) : (advanceOp s).stimuli = s.stimuli := rfl
@[simp] theorem advanceOp_bench (s : State) : (advanceOp s).bench = s.bench := rfl

/-! `passInit` -/

@[simp] theorem passInit_prev (s : State) : (passInit s).prev = s.prev := rfl
@[simp] theorem passInit_cursor (s : State) : (passInit s).cursor = s.cursor := rfl
@[simp] theorem passInit_keepalive (s : State) : (passInit s).keepalive = s.keepalive := rfl
@[simp] theorem passInit_cur (s : State) : (passInit s).cur = s.cur := rfl
@[simp] theorem passInit_delta (s : State) : (passInit s).delta = s.delta := rfl
@[simp] theorem passInit_dlen (s : State) : (passInit s).dlen = 0 := rfl
@[simp] theorem passInit_acc (s : State) : (passInit s).acc = s.acc := rfl
@[simp] theorem passInit_bitcnt (s : State) : (passInit s).bitcnt = s.bitcnt := rfl
@[simp] theorem passInit_oidx (s : State) : (passInit s).oidx = s.oidx := rfl
@[simp] theorem passInit_blk (s : State) : (passInit s).blk = 0 := rfl
@[simp] theorem passInit_force (s : State) : (passInit s).force = s.force := rfl
@[simp] theorem passInit_proceed (s : State) : (passInit s).proceed = s.proceed := rfl
@[simp] theorem passInit_shapeOk (s : State) : (passInit s).shapeOk = s.shapeOk := rfl
@[simp] theorem passInit_changed (s : State) : (passInit s).changed = s.changed := rfl
@[simp] theorem passInit_forced (s : State) : (passInit s).forced = s.forced := rfl
@[simp] theorem passInit_included (s : State) : (passInit s).included = s.included := rfl
@[simp] theorem passInit_empty (s : State) : (passInit s).empty = s.empty := rfl
@[simp] theorem passInit_phase (s : State) : (passInit s).phase = s.phase := rfl
@[simp] theorem passInit_pos (s : State) : (passInit s).pos = s.pos := rfl
@[simp] theorem passInit_outcome (s : State) : (passInit s).outcome = s.outcome := rfl
@[simp] theorem passInit_done (s : State) : (passInit s).done = s.done := rfl
@[simp] theorem passInit_rst (s : State) : (passInit s).rst = s.rst := rfl
@[simp] theorem passInit_start (s : State) : (passInit s).start = s.start := rfl
@[simp] theorem passInit_forcePin (s : State) : (passInit s).forcePin = s.forcePin := rfl
@[simp] theorem passInit_linkPresent (s : State) : (passInit s).linkPresent = s.linkPresent := rfl
@[simp] theorem passInit_txReady (s : State) : (passInit s).txReady = s.txReady := rfl
@[simp] theorem passInit_status (s : State) : (passInit s).status = s.status := rfl
@[simp] theorem passInit_fb (s : State) : (passInit s).fb = s.fb := rfl
@[simp] theorem passInit_tx (s : State) : (passInit s).tx = s.tx := rfl
@[simp] theorem passInit_stream (s : State) : (passInit s).stream = s.stream := rfl
@[simp] theorem passInit_txArg (s : State) : (passInit s).txArg = s.txArg := rfl
@[simp] theorem passInit_resets (s : State) : (passInit s).resets = s.resets := rfl
@[simp] theorem passInit_stimuli (s : State) : (passInit s).stimuli = s.stimuli := rfl
@[simp] theorem passInit_bench (s : State) : (passInit s).bench = s.bench := rfl

/-! `emptyChkOp` -/

@[simp] theorem emptyChkOp_prev (s : State) : (emptyChkOp s).prev = s.prev := rfl
@[simp] theorem emptyChkOp_cursor (s : State) : (emptyChkOp s).cursor = s.cursor := rfl
@[simp] theorem emptyChkOp_keepalive (s : State) : (emptyChkOp s).keepalive = s.keepalive := rfl
@[simp] theorem emptyChkOp_cur (s : State) : (emptyChkOp s).cur = s.cur := rfl
@[simp] theorem emptyChkOp_delta (s : State) : (emptyChkOp s).delta = s.delta := rfl
@[simp] theorem emptyChkOp_dlen (s : State) : (emptyChkOp s).dlen = s.dlen := rfl
@[simp] theorem emptyChkOp_acc (s : State) : (emptyChkOp s).acc = s.acc := rfl
@[simp] theorem emptyChkOp_bitcnt (s : State) : (emptyChkOp s).bitcnt = s.bitcnt := rfl
@[simp] theorem emptyChkOp_oidx (s : State) : (emptyChkOp s).oidx = s.oidx := rfl
@[simp] theorem emptyChkOp_blk (s : State) : (emptyChkOp s).blk = s.blk := rfl
@[simp] theorem emptyChkOp_force (s : State) : (emptyChkOp s).force = s.force := rfl
@[simp] theorem emptyChkOp_proceed (s : State) : (emptyChkOp s).proceed = s.proceed := rfl
@[simp] theorem emptyChkOp_shapeOk (s : State) : (emptyChkOp s).shapeOk = s.shapeOk := rfl
@[simp] theorem emptyChkOp_changed (s : State) : (emptyChkOp s).changed = s.changed := rfl
@[simp] theorem emptyChkOp_forced (s : State) : (emptyChkOp s).forced = s.forced := rfl
@[simp] theorem emptyChkOp_included (s : State) : (emptyChkOp s).included = s.included := rfl
@[simp] theorem emptyChkOp_empty (s : State) : (emptyChkOp s).empty = emptyFlag s.dlen := rfl
@[simp] theorem emptyChkOp_phase (s : State) : (emptyChkOp s).phase = s.phase := rfl
@[simp] theorem emptyChkOp_pos (s : State) : (emptyChkOp s).pos = s.pos := rfl
@[simp] theorem emptyChkOp_outcome (s : State) : (emptyChkOp s).outcome = s.outcome := rfl
@[simp] theorem emptyChkOp_done (s : State) : (emptyChkOp s).done = s.done := rfl
@[simp] theorem emptyChkOp_rst (s : State) : (emptyChkOp s).rst = s.rst := rfl
@[simp] theorem emptyChkOp_start (s : State) : (emptyChkOp s).start = s.start := rfl
@[simp] theorem emptyChkOp_forcePin (s : State) : (emptyChkOp s).forcePin = s.forcePin := rfl
@[simp] theorem emptyChkOp_linkPresent (s : State) : (emptyChkOp s).linkPresent = s.linkPresent := rfl
@[simp] theorem emptyChkOp_txReady (s : State) : (emptyChkOp s).txReady = s.txReady := rfl
@[simp] theorem emptyChkOp_status (s : State) : (emptyChkOp s).status = s.status := rfl
@[simp] theorem emptyChkOp_fb (s : State) : (emptyChkOp s).fb = s.fb := rfl
@[simp] theorem emptyChkOp_tx (s : State) : (emptyChkOp s).tx = s.tx := rfl
@[simp] theorem emptyChkOp_stream (s : State) : (emptyChkOp s).stream = s.stream := rfl
@[simp] theorem emptyChkOp_txArg (s : State) : (emptyChkOp s).txArg = s.txArg := rfl
@[simp] theorem emptyChkOp_resets (s : State) : (emptyChkOp s).resets = s.resets := rfl
@[simp] theorem emptyChkOp_stimuli (s : State) : (emptyChkOp s).stimuli = s.stimuli := rfl
@[simp] theorem emptyChkOp_bench (s : State) : (emptyChkOp s).bench = s.bench := rfl

/-! `resetOp` -/

@[simp] theorem resetOp_prev (s : State) : (resetOp s).prev = [] := by simp only [resetOp]
@[simp] theorem resetOp_cursor (s : State) : (resetOp s).cursor = Config.cursorReset := by simp only [resetOp]
@[simp] theorem resetOp_keepalive (s : State) : (resetOp s).keepalive = Config.keepaliveReset := by simp only [resetOp]
@[simp] theorem resetOp_cur (s : State) : (resetOp s).cur = Memory.tabulate Config.frameBytes (Config.resetCur s.resets) := by simp only [resetOp]
@[simp] theorem resetOp_delta (s : State) : (resetOp s).delta = Memory.tabulate Config.deltaMax (Config.resetDelta s.resets) := by simp only [resetOp]
@[simp] theorem resetOp_dlen (s : State) : (resetOp s).dlen = BitVec.ofNat 11 (Config.groupBytes * (Config.resetGroups s.resets).val) := by simp only [resetOp]
@[simp] theorem resetOp_acc (s : State) : (resetOp s).acc = Config.resetAcc s.resets := by simp only [resetOp]
@[simp] theorem resetOp_bitcnt (s : State) : (resetOp s).bitcnt = BitVec.ofNat 4 (Config.resetBitcnt s.resets).val := by simp only [resetOp]
@[simp] theorem resetOp_oidx (s : State) : (resetOp s).oidx = BitVec.ofNat 11 (Config.resetOidx s.resets).val := by simp only [resetOp]
@[simp] theorem resetOp_blk (s : State) : (resetOp s).blk = BitVec.ofNat 8 (Config.resetBlk s.resets).val := by simp only [resetOp]
@[simp] theorem resetOp_force (s : State) : (resetOp s).force = Config.resetForce s.resets := by simp only [resetOp]
@[simp] theorem resetOp_proceed (s : State) : (resetOp s).proceed = Config.resetSignal s.resets 0 := by simp only [resetOp]
@[simp] theorem resetOp_shapeOk (s : State) : (resetOp s).shapeOk = Config.resetSignal s.resets 1 := by simp only [resetOp]
@[simp] theorem resetOp_changed (s : State) : (resetOp s).changed = Config.resetSignal s.resets 2 := by simp only [resetOp]
@[simp] theorem resetOp_forced (s : State) : (resetOp s).forced = Config.resetSignal s.resets 3 := by simp only [resetOp]
@[simp] theorem resetOp_included (s : State) : (resetOp s).included = Config.resetSignal s.resets 4 := by simp only [resetOp]
@[simp] theorem resetOp_empty (s : State) : (resetOp s).empty = Config.resetSignal s.resets 5 := by simp only [resetOp]
@[simp] theorem resetOp_phase (s : State) : (resetOp s).phase = .idle := by simp only [resetOp]
@[simp] theorem resetOp_pos (s : State) : (resetOp s).pos = Config.resetPos s.resets := by simp only [resetOp]
@[simp] theorem resetOp_outcome (s : State) : (resetOp s).outcome = exitOfCode (Config.resetOutcome s.resets) := by simp only [resetOp]
@[simp] theorem resetOp_done (s : State) : (resetOp s).done = false := by simp only [resetOp]
@[simp] theorem resetOp_rst (s : State) : (resetOp s).rst = s.rst := by simp only [resetOp]
@[simp] theorem resetOp_start (s : State) : (resetOp s).start = s.start := by simp only [resetOp]
@[simp] theorem resetOp_forcePin (s : State) : (resetOp s).forcePin = s.forcePin := by simp only [resetOp]
@[simp] theorem resetOp_linkPresent (s : State) : (resetOp s).linkPresent = s.linkPresent := by simp only [resetOp]
@[simp] theorem resetOp_txReady (s : State) : (resetOp s).txReady = s.txReady := by simp only [resetOp]
@[simp] theorem resetOp_status (s : State) : (resetOp s).status = s.status := by simp only [resetOp]
@[simp] theorem resetOp_fb (s : State) : (resetOp s).fb = s.fb := by simp only [resetOp]
@[simp] theorem resetOp_tx (s : State) : (resetOp s).tx = s.tx := by simp only [resetOp]
@[simp] theorem resetOp_stream (s : State) : (resetOp s).stream = s.stream := by simp only [resetOp]
@[simp] theorem resetOp_txArg (s : State) : (resetOp s).txArg = s.txArg := by simp only [resetOp]
@[simp] theorem resetOp_resets (s : State) : (resetOp s).resets = s.resets + 1 := by simp only [resetOp]
@[simp] theorem resetOp_stimuli (s : State) : (resetOp s).stimuli = s.stimuli := by simp only [resetOp]
@[simp] theorem resetOp_bench (s : State) : (resetOp s).bench = s.bench := by simp only [resetOp]

/-- Every buffer of the reset state is in canonical form. -/
theorem reset_buffersWf : State.reset.buffersWf = true := rfl

/-! The transmission of a whole frame. -/

@[simp] theorem sendFrame_prev (p : List Byte) (s : State) : (sendFrame p s).prev = s.prev := by simp only [sendFrame, txBytes_prev]
@[simp] theorem sendFrame_cursor (p : List Byte) (s : State) : (sendFrame p s).cursor = s.cursor := by simp only [sendFrame, txBytes_cursor]
@[simp] theorem sendFrame_keepalive (p : List Byte) (s : State) : (sendFrame p s).keepalive = s.keepalive := by simp only [sendFrame, txBytes_keepalive]
@[simp] theorem sendFrame_cur (p : List Byte) (s : State) : (sendFrame p s).cur = s.cur := by simp only [sendFrame, txBytes_cur]
@[simp] theorem sendFrame_delta (p : List Byte) (s : State) : (sendFrame p s).delta = s.delta := by simp only [sendFrame, txBytes_delta]
@[simp] theorem sendFrame_dlen (p : List Byte) (s : State) : (sendFrame p s).dlen = s.dlen := by simp only [sendFrame, txBytes_dlen]
@[simp] theorem sendFrame_acc (p : List Byte) (s : State) : (sendFrame p s).acc = s.acc := by simp only [sendFrame, txBytes_acc]
@[simp] theorem sendFrame_bitcnt (p : List Byte) (s : State) : (sendFrame p s).bitcnt = s.bitcnt := by simp only [sendFrame, txBytes_bitcnt]
@[simp] theorem sendFrame_oidx (p : List Byte) (s : State) : (sendFrame p s).oidx = s.oidx := by simp only [sendFrame, txBytes_oidx]
@[simp] theorem sendFrame_blk (p : List Byte) (s : State) : (sendFrame p s).blk = s.blk := by simp only [sendFrame, txBytes_blk]
@[simp] theorem sendFrame_force (p : List Byte) (s : State) : (sendFrame p s).force = s.force := by simp only [sendFrame, txBytes_force]
@[simp] theorem sendFrame_proceed (p : List Byte) (s : State) : (sendFrame p s).proceed = s.proceed := by simp only [sendFrame, txBytes_proceed]
@[simp] theorem sendFrame_shapeOk (p : List Byte) (s : State) : (sendFrame p s).shapeOk = s.shapeOk := by simp only [sendFrame, txBytes_shapeOk]
@[simp] theorem sendFrame_changed (p : List Byte) (s : State) : (sendFrame p s).changed = s.changed := by simp only [sendFrame, txBytes_changed]
@[simp] theorem sendFrame_forced (p : List Byte) (s : State) : (sendFrame p s).forced = s.forced := by simp only [sendFrame, txBytes_forced]
@[simp] theorem sendFrame_included (p : List Byte) (s : State) : (sendFrame p s).included = s.included := by simp only [sendFrame, txBytes_included]
@[simp] theorem sendFrame_empty (p : List Byte) (s : State) : (sendFrame p s).empty = s.empty := by simp only [sendFrame, txBytes_empty]
@[simp] theorem sendFrame_phase (p : List Byte) (s : State) : (sendFrame p s).phase = s.phase := by simp only [sendFrame, txBytes_phase]
@[simp] theorem sendFrame_pos (p : List Byte) (s : State) : (sendFrame p s).pos = s.pos := by simp only [sendFrame, txBytes_pos]
@[simp] theorem sendFrame_outcome (p : List Byte) (s : State) : (sendFrame p s).outcome = s.outcome := by simp only [sendFrame, txBytes_outcome]
@[simp] theorem sendFrame_done (p : List Byte) (s : State) : (sendFrame p s).done = s.done := by simp only [sendFrame, txBytes_done]
@[simp] theorem sendFrame_rst (p : List Byte) (s : State) : (sendFrame p s).rst = s.rst := by simp only [sendFrame, txBytes_rst]
@[simp] theorem sendFrame_start (p : List Byte) (s : State) : (sendFrame p s).start = s.start := by simp only [sendFrame, txBytes_start]
@[simp] theorem sendFrame_forcePin (p : List Byte) (s : State) : (sendFrame p s).forcePin = s.forcePin := by simp only [sendFrame, txBytes_forcePin]
@[simp] theorem sendFrame_linkPresent (p : List Byte) (s : State) : (sendFrame p s).linkPresent = s.linkPresent := by simp only [sendFrame, txBytes_linkPresent]
@[simp] theorem sendFrame_txReady (p : List Byte) (s : State) : (sendFrame p s).txReady = s.txReady := by simp only [sendFrame, txBytes_txReady]
@[simp] theorem sendFrame_status (p : List Byte) (s : State) : (sendFrame p s).status = s.status := by simp only [sendFrame, txBytes_status]
@[simp] theorem sendFrame_fb (p : List Byte) (s : State) : (sendFrame p s).fb = s.fb := by simp only [sendFrame, txBytes_fb]
@[simp] theorem sendFrame_tx (p : List Byte) (s : State) : (sendFrame p s).tx = s.tx ++ wireBytes p := by
  simp [sendFrame, wireBytes]
@[simp] theorem sendFrame_stream (p : List Byte) (s : State) : (sendFrame p s).stream = s.stream ++ wireBytes p := by
  simp [sendFrame, wireBytes]
@[simp] theorem sendFrame_txArg (p : List Byte) (s : State) : (sendFrame p s).txArg = [Config.term] := by simp only [sendFrame, txBytes_txArg]
@[simp] theorem sendFrame_resets (p : List Byte) (s : State) : (sendFrame p s).resets = s.resets := by simp only [sendFrame, txBytes_resets]
@[simp] theorem sendFrame_stimuli (p : List Byte) (s : State) : (sendFrame p s).stimuli = s.stimuli := by simp only [sendFrame, txBytes_stimuli]
@[simp] theorem sendFrame_bench (p : List Byte) (s : State) : (sendFrame p s).bench = s.bench := by simp only [sendFrame, txBytes_bench]

/-- FRAME's five TX calls in one update (only the concatenated bytes are normative, R172). -/
theorem sendFrame_eq (p : List Byte) (s : State) :
    sendFrame p s = { s with tx := s.tx ++ wireBytes p, stream := s.stream ++ wireBytes p, txArg := [Config.term] } := by
  apply State.ext <;> simp only [sendFrame_tx, sendFrame_stream, sendFrame_txArg, sendFrame_prev, sendFrame_cursor, sendFrame_keepalive, sendFrame_cur, sendFrame_delta, sendFrame_dlen, sendFrame_acc, sendFrame_bitcnt, sendFrame_oidx, sendFrame_blk, sendFrame_force, sendFrame_proceed, sendFrame_shapeOk, sendFrame_changed, sendFrame_forced, sendFrame_included, sendFrame_empty, sendFrame_phase, sendFrame_pos, sendFrame_outcome, sendFrame_done, sendFrame_rst, sendFrame_start, sendFrame_forcePin, sendFrame_linkPresent, sendFrame_txReady, sendFrame_status, sendFrame_fb, sendFrame_resets, sendFrame_stimuli, sendFrame_bench]

end Sys2Proof.Machine
end

