-- ==== Sys2Proof/Laws/Ops.lean ====
section
/-! SUPPORT. For each shared operation one lemma that says all it can do: if it answers a next state, then which, and under
what guard. Later proofs cite these and unfold nothing. -/

namespace Sys2Proof.Machine

@[simp] theorem andThen_next (s : State) (k : State → Res) : andThen (.next s) k = k s := rfl
@[simp] theorem andThen_fault (f : Fault) (k : State → Res) : andThen (.fault f) k = .fault f := rfl
@[simp] theorem andThen_refused (e : Refusal) (k : State → Res) : andThen (.refused e) k = .refused e := rfl

/-- A sequence answers a next state exactly when both its parts do. -/
theorem andThen_eq_next {r : Res} {k : State → Res} {t : State} :
    andThen r k = .next t ↔ ∃ s, r = .next s ∧ k s = .next t := by
  cases r <;> simp [andThen]

theorem andThen_assoc (r : Res) (k l : State → Res) :
    andThen (andThen r k) l = andThen r fun s => andThen (k s) l := by
  cases r <;> rfl

@[simp] theorem andThen_pure (r : Res) : andThen r (fun s => .next s) = r := by
  cases r <;> rfl

@[simp] theorem times_zero (f : State → Res) (s : State) : times 0 f s = .next s := rfl

theorem times_succ (n : Nat) (f : State → Res) (s : State) : times (n + 1) f s = andThen (f s) (times n f) := rfl

/-- A loop of `m + n` rounds is one of `m` and then one of `n`. -/
theorem times_add (m n : Nat) (f : State → Res) (s : State) :
    times (m + n) f s = andThen (times m f s) (times n f) := by
  induction m generalizing s with
  | zero => simp
  | succ m ih =>
    rw [Nat.add_right_comm, times_succ, times_succ, andThen_assoc]
    congr 1
    funext t
    exact ih t

/-- The last round of a loop. -/
theorem times_succ_last (n : Nat) (f : State → Res) (s : State) :
    times (n + 1) f s = andThen (times n f s) f := by
  rw [times_add]
  congr 1
  funext t
  exact andThen_pure (f t)

/-- What every round keeps, a loop keeps. -/
theorem times_keeps {P : State → Prop} {f : State → Res} (hf : ∀ s t, P s → f s = .next t → P t) {n : Nat} {s t : State}
    (hs : P s) (h : times n f s = .next t) : P t := by
  induction n generalizing s with
  | zero =>
    cases h
    exact hs
  | succ n ih =>
    obtain ⟨u, hu, ht⟩ := andThen_eq_next.1 h
    exact ih (hf s u hs hu) ht

/-- A loop runs to its end where each round does, along a relation that counts the rounds. -/
theorem times_runs {P : Nat → State → Prop} {f : State → Res} {n : Nat}
    (hf : ∀ k s, k < n → P k s → ∃ t, f s = .next t ∧ P (k + 1) t) {s : State} (hs : P 0 s) :
    ∃ t, times n f s = .next t ∧ P n t := by
  suffices h : ∀ m, m ≤ n → ∃ t, times m f s = .next t ∧ P m t from h n (Nat.le_refl n)
  intro m hm
  induction m with
  | zero => exact ⟨s, rfl, hs⟩
  | succ m ih =>
    obtain ⟨u, hu, hp⟩ := ih (by omega)
    obtain ⟨t, ht, hp'⟩ := hf m u (by omega) hp
    exact ⟨t, by rw [times_succ_last, hu]; exact ht, hp'⟩

/-- FLUSH. -/
theorem flushOp_eq_next {s t : State} :
    flushOp s = .next t ↔ s.oidx.toNat < 1024 ∧
      t = { s with cur := s.cur.write s.oidx.toNat s.acc, oidx := s.oidx + 1, acc := 0, bitcnt := 0 } := by
  unfold flushOp
  split <;> simp_all [eq_comm]

/-- PACKBIT. -/
theorem packBitOp_eq_next {s t : State} :
    packBitOp s = .next t ↔
      (s.bitcnt + 1 ≠ 8 ∧ t = placeBit s) ∨
      (s.bitcnt + 1 = 8 ∧ s.oidx.toNat < 1024 ∧
        t = { s with cur := s.cur.write s.oidx.toNat (placeBit s).acc, oidx := s.oidx + 1, acc := 0, bitcnt := 0 }) := by
  unfold packBitOp
  by_cases h : s.bitcnt + 1 = 8
  · rw [if_pos (show (placeBit s).bitcnt = 8 from h), flushOp_eq_next]
    constructor
    · rintro ⟨ho, rfl⟩
      exact .inr ⟨h, ho, rfl⟩
    · rintro (⟨hn, -⟩ | ⟨-, ho, rfl⟩)
      · exact absurd h hn
      · exact ⟨ho, rfl⟩
  · rw [if_neg (show ¬ (placeBit s).bitcnt = 8 from h)]
    constructor
    · intro ht
      cases ht
      exact .inl ⟨h, rfl⟩
    · rintro (⟨-, rfl⟩ | ⟨hn, -⟩)
      · rfl
      · exact absurd hn h

/-- One visit of the packing loop. -/
theorem visitOp_eq_next {s t : State} :
    visitOp s = .next t ↔ ∃ u, packBitOp s = .next u ∧ t = { u with pos := u.pos + 1 } := by
  unfold visitOp
  rw [andThen_eq_next]
  constructor
  · rintro ⟨u, hu, h⟩
    cases h
    exact ⟨u, hu, rfl⟩
  · rintro ⟨u, hu, rfl⟩
    exact ⟨u, hu, rfl⟩

/-- PFLUSH. -/
theorem pflushOp_eq_next {s t : State} :
    pflushOp s = .next t ↔
      (s.bitcnt = 0 ∧ t = s) ∨
      (s.bitcnt ≠ 0 ∧ s.oidx.toNat < 1024 ∧
        t = { s with cur := s.cur.write s.oidx.toNat s.acc, oidx := s.oidx + 1 }) := by
  unfold pflushOp
  by_cases h : s.bitcnt = 0
  · rw [if_neg (by simp only [h, ne_eq, not_true_eq_false, not_false_eq_true])]
    constructor
    · intro ht
      cases ht
      exact .inl ⟨h, rfl⟩
    · rintro (⟨-, rfl⟩ | ⟨hn, -⟩)
      · rfl
      · exact absurd h hn
  · rw [if_pos h]
    split
    · rename_i ho
      constructor
      · intro ht
        cases ht
        exact .inr ⟨h, ho, rfl⟩
      · rintro (⟨h0, -⟩ | ⟨-, -, rfl⟩)
        · exact absurd h0 h
        · rfl
    · rename_i ho
      constructor
      · intro ht
        cases ht
      · rintro (⟨h0, -⟩ | ⟨-, hc, -⟩)
        · exact absurd h0 h
        · exact absurd hc ho

/-- PACK. -/
theorem packOp_eq_next {s t : State} :
    packOp s = .next t ↔ ∃ u, times 8 packRowOp (packInit s) = .next u ∧ pflushOp u = .next t :=
  andThen_eq_next

/-- CMP8. -/
theorem cmp8Op_eq_next {s t : State} :
    cmp8Op s = .next t ↔ s.blk.toNat < 128 ∧ t = { s with changed := changedFlag s.cur s.prev s.blk.toNat } := by
  unfold cmp8Op
  split <;> simp_all [eq_comm]

/-- The emission of a group. -/
theorem emitGroupOp_eq_next {b : Nat} {data : List Byte} {s t : State} :
    emitGroupOp b data s = .next t ↔ b < 128 ∧ s.dlen.toNat + 9 ≤ 1152 ∧
      t = { s with
        delta := s.delta.writeBytes s.dlen.toNat (BitVec.ofNat 8 b :: data)
        dlen := s.dlen + 9
        prev := s.prev.writeBytes (8 * b) data } := by
  unfold emitGroupOp
  split_ifs <;> simp_all [eq_comm]

/-- One block of the pass. -/
theorem blockOp_eq_next {s t : State} :
    blockOp s = .next t ↔ ∃ u v, cmp8Op s = .next u ∧
      ((selOp u).included = true ∧ emitBlkOp (selOp u) = .next v ∨ (selOp u).included = false ∧ v = selOp u) ∧
      t = { v with blk := v.blk + 1 } := by
  unfold blockOp
  constructor
  · intro h
    obtain ⟨u, hu, h⟩ := andThen_eq_next.1 h
    obtain ⟨v, hv, h⟩ := andThen_eq_next.1 h
    cases h
    refine ⟨u, v, hu, ?_, rfl⟩
    split at hv
    · exact .inl ⟨by assumption, hv⟩
    · cases hv
      exact .inr ⟨by simp_all, rfl⟩
  · rintro ⟨u, v, hu, hv, rfl⟩
    rw [hu, andThen_next]
    rcases hv with ⟨hi, hv⟩ | ⟨hi, rfl⟩
    · rw [if_pos hi, hv, andThen_next]
    · rw [if_neg (by rw [hi]; exact Bool.false_ne_true), andThen_next]

/-- DPASS. -/
theorem dpassOp_eq_next {s t : State} :
    dpassOp s = .next t ↔ ∃ u, times 128 blockOp (passInit s) = .next u ∧ t = advanceOp u := by
  unfold dpassOp
  rw [andThen_eq_next]
  constructor
  · rintro ⟨u, hu, h⟩
    cases h
    exact ⟨u, hu, rfl⟩
  · rintro ⟨u, hu, rfl⟩
    exact ⟨u, hu, rfl⟩

/-- FRAME. -/
theorem frameOp_eq_next {s t : State} :
    frameOp s = .next t ↔ s.dlen.toNat ≤ 1152 ∧ t = sendFrame (deltaPayload s) s := by
  unfold frameOp
  split <;> simp_all [eq_comm]

/-- The framer's part of an invocation. -/
theorem transmitPart_eq_next {s t : State} :
    transmitPart s = .next t ↔
      (s.dlen = 0 ∧ t = exitInvocation .skippedEmpty (emptyChkOp s)) ∨
      (s.dlen ≠ 0 ∧ s.dlen.toNat ≤ 1152 ∧
        t = exitInvocation .sent (sendFrame (deltaPayload s) (emptyChkOp s))) := by
  unfold transmitPart
  by_cases h : s.dlen = 0
  · simp [h, emptyFlag, eq_comm]
  · have he : (emptyChkOp s).empty = false := by
      rw [emptyChkOp_empty]
      exact decide_eq_false h
    rw [if_neg (by rw [he]; exact Bool.false_ne_true), andThen_eq_next]
    simp only [frameOp_eq_next, emptyChkOp_dlen]
    constructor
    · rintro ⟨u, ⟨hd, rfl⟩, hx⟩
      cases hx
      exact .inr ⟨h, hd, rfl⟩
    · rintro (⟨h0, -⟩ | ⟨-, hd, rfl⟩)
      · exact absurd h0 h
      · exact ⟨_, ⟨hd, rfl⟩, rfl⟩

/-- The change of a source. -/
theorem setSources_eq_next {a b : Memory} {s t : State} :
    setSources a b s = .next t ↔ snapshotOpen s = false ∧ t = { s with status := a, fb := b } := by
  unfold setSources
  cases snapshotOpen s
  · rw [if_neg Bool.false_ne_true]
    constructor
    · intro h
      cases h
      exact ⟨rfl, rfl⟩
    · rintro ⟨-, rfl⟩
      rfl
  · rw [if_pos rfl]
    constructor
    · intro h
      cases h
    · rintro ⟨h, -⟩
      exact absurd h (by decide)

/-- With `rst` low nothing is in the way. -/
theorem unlessReset_low {k : State → Res} {s : State} (hr : s.rst = false) : unlessReset k s = k s :=
  if_neg (by rw [hr]; exact Bool.false_ne_true)

/-- With `rst` high there is RESET and nothing else. -/
theorem unlessReset_high {k : State → Res} {s : State} (hr : s.rst = true) : unlessReset k s = .next (resetOp s) := if_pos hr

/-- What happens under the reset pin. -/
theorem unlessReset_eq_next {k : State → Res} {s t : State} :
    unlessReset k s = .next t ↔ (s.rst = true ∧ t = resetOp s) ∨ (s.rst = false ∧ k s = .next t) := by
  cases hr : s.rst
  · simp [unlessReset_low hr]
  · simp [unlessReset_high hr, eq_comm]

/-- A move of the sequencer while `rst` is low, by PHASE. -/
theorem tick_of_not_rst {s : State} (hr : s.rst = false) : tick s = phaseMove s := unlessReset_low hr

/-- The operation on the bench, where it decodes. -/
theorem benchStep_of_decode {f : Format} {bytes : List Byte} {i : Instr} {s : State} (hr : s.rst = false)
    (hd : decode f bytes = .ok i) : benchStep f bytes s = exec i s := by
  unfold benchStep
  rw [unlessReset_low hr, hd]

/-- With an empty bench the step is the block's own. -/
theorem step_of_empty_bench {s : State} (hb : s.bench = none) : step s = blockStep s := by
  unfold step
  rw [hb]

/-- With nothing for the environment to do the block makes one move. -/
theorem blockStep_nil {s : State} (h : s.stimuli = []) : blockStep s = tick s := by
  unfold blockStep
  rw [h]

/-- The environment's next stimulus. -/
theorem blockStep_cons {s : State} {st : Stimulus} {rest : List Stimulus} (h : s.stimuli = st :: rest) :
    blockStep s = stimulate st { s with stimuli := rest } := by
  unfold blockStep
  rw [h]

/-- The environment drives the pins, one move after another: one step of such a run. -/
theorem drivenStep {s : State} {p : Pins} {rest : List Stimulus} (hb : s.bench = none) (h : s.stimuli = p.stimulus :: rest) :
    step s = tick ({ s with stimuli := rest }.atPins p) := by
  rw [step_of_empty_bench hb, blockStep_cons h]
  rfl

end Sys2Proof.Machine
end

