-- ==== Sys2Proof/Laws/PerInstr.lean ====
section
/-! SUPPORT. A family of facts about every instruction as syntax: how many bytes its encoding has
(spec/30_encoding.md R70, R76, R80). -/

namespace Sys2Proof

/-- The bytes of an encoding: one for a word of up to 8 bits, none for RESET, 9 for a group, 6 + 9g for a frame of g groups. -/
def encodedBytes : Instr → Nat
  | .shot _ => 1
  | .reset => 0
  | .gate => 1
  | .pack => 1
  | .packrow => 1
  | .packbit => 1
  | .flush => 1
  | .pflush => 1
  | .guard => 1
  | .dpass => 1
  | .cmp8 => 1
  | .sel => 1
  | .emitblk => 1
  | .advance => 1
  | .emptychk => 1
  | .frame => 1
  | .tx => 1
  | .group _ => 9
  | .wire gs => 6 + 9 * gs.length

/-- The payload of well-formed groups has nine bytes a group (R77). -/
theorem payloadBytes_length {gs : List Group} (h : ∀ g ∈ gs, g.wf = true) : (payloadBytes gs).length = 9 * gs.length := by
  induction gs with
  | nil => rfl
  | cons g gs ih =>
    have hg := h g (List.mem_cons_self ..)
    simp only [Group.wf, Bool.and_eq_true, decide_eq_true_eq, Config.blockBytes, Config.nBlocks] at hg
    have := ih fun g hg => h g (List.mem_cons_of_mem _ hg)
    simp only [payloadBytes, List.flatMap_cons, List.length_append, Group.bytes, List.length_cons] at *
    omega

/-- A frame has six bytes more than its payload (R80). -/
@[simp] theorem wireBytes_length (p : List Byte) : (wireBytes p).length = p.length + 6 := by
  simp [wireBytes, lengthField]

namespace Laws.EncodedLength

/-- A well-formed instruction's encoding has the length its format gives it. -/
def Statement (i : Instr) : Prop := i.wf = true → (encode i).2.length = encodedBytes i

theorem shot (f : Bool) : Statement (.shot f) := fun _ => rfl
theorem reset : Statement .reset := fun _ => rfl
theorem gate : Statement .gate := fun _ => rfl
theorem pack : Statement .pack := fun _ => rfl
theorem packrow : Statement .packrow := fun _ => rfl
theorem packbit : Statement .packbit := fun _ => rfl
theorem flush : Statement .flush := fun _ => rfl
theorem pflush : Statement .pflush := fun _ => rfl
theorem guard : Statement .guard := fun _ => rfl
theorem dpass : Statement .dpass := fun _ => rfl
theorem cmp8 : Statement .cmp8 := fun _ => rfl
theorem sel : Statement .sel := fun _ => rfl
theorem emitblk : Statement .emitblk := fun _ => rfl
theorem advance : Statement .advance := fun _ => rfl
theorem emptychk : Statement .emptychk := fun _ => rfl
theorem frame : Statement .frame := fun _ => rfl
theorem tx : Statement .tx := fun _ => rfl

theorem group (g : Group) : Statement (.group g) := by
  intro h
  simp only [Instr.wf, Group.wf, Bool.and_eq_true, decide_eq_true_eq] at h
  simp only [encode, Group.bytes, List.length_cons, h.2, encodedBytes]

theorem wire (gs : List Group) : Statement (.wire gs) := by
  intro h
  simp only [Instr.wf, wfPayload, Bool.and_eq_true, List.all_eq_true] at h
  simp only [encode, wireBytes_length, payloadBytes_length h.1.2, encodedBytes]
  omega

end Laws.EncodedLength

end Sys2Proof
end

