-- ==== Sys2Proof/Tests/Slice0.lean ====
section
/-! SUPPORT. The model's own tests. Expected results are the spec's: the vectors of spec/95_test_vectors.md (named S, V, G, T and
P there), the encodings of spec/30_encoding.md, and the worked examples of the rule files. The witnesses at the end show that
the hypotheses of the statements can be met. -/

namespace Sys2Proof.Tests

open Sys2Proof.Machine

/-- What is asked of a next state. -/
def nextHas (p : State → Bool) (r : Res) : Bool :=
  match r with
  | .next s => p s
  | _ => false

/-- Whether a decoder gave just this instruction. -/
def gives (i : Instr) (r : Except DecodeError Instr) : Bool :=
  match r with
  | .ok j => decide (j = i)
  | .error _ => false

/-- Whether a decoder rejected the bytes for just this reason. -/
def rejects (e : DecodeError) (r : Except DecodeError Instr) : Bool :=
  match r with
  | .ok _ => false
  | .error d => decide (d = e)

/-! Parameters: the links of R5. -/

theorem test_frame_bytes :
    (Config.statusCols + Config.fbRows * Config.fbCols) * Config.planes / 8 = Config.frameBytes ∧
    Config.frameBytes / Config.blockBytes = Config.nBlocks ∧ Config.nBlocks * Config.groupBytes = Config.deltaMax ∧
    Config.statusCols / 8 = Config.planeBytes ∧ Config.planes * Config.planeBytes = Config.rowBytes := by decide

/-! WellFormed: an ill-formed term for each check. -/

theorem test_wf_index_128 : (Instr.group ⟨128, [0, 0, 0, 0, 0, 0, 0, 0]⟩).wf = false := by decide
theorem test_wf_index_127 : (Instr.group ⟨127, [0, 0, 0, 0, 0, 0, 0, 0]⟩).wf = true := by decide
theorem test_wf_seven_data_bytes : (Instr.group ⟨5, [0, 0, 0, 0, 0, 0, 0]⟩).wf = false := by decide
theorem test_wf_empty_frame : (Instr.wire []).wf = false := by decide
theorem test_wf_repeated_index :
    (Instr.wire [⟨5, [0, 0, 0, 0, 0, 0, 0, 0]⟩, ⟨5, [0, 0, 0, 0, 0, 0, 0, 0]⟩]).wf = false := by decide
theorem test_wf_ill_formed_group : (Instr.wire [⟨5, []⟩]).wf = false := by decide
theorem test_wf_129_groups : (Instr.wire (List.replicate 129 ⟨0, [0, 0, 0, 0, 0, 0, 0, 0]⟩)).wf = false := by
  decide +kernel

/-! Decoding: one word for every constructor, written out from R71, R72, R73, R76 and R80. -/

theorem test_decode_shot_plain : gives (.shot false) (decode .cmd [0b0]) = true := by decide
theorem test_decode_shot_force : gives (.shot true) (decode .cmd [0b1]) = true := by decide
theorem test_decode_reset : gives .reset (decode .pin []) = true := by decide
theorem test_decode_gate : gives .gate (decode .uop [0b0000]) = true := by decide
theorem test_decode_pack : gives .pack (decode .uop [0b0001]) = true := by decide
theorem test_decode_packrow : gives .packrow (decode .uop [0b0010]) = true := by decide
theorem test_decode_packbit : gives .packbit (decode .uop [0b0011]) = true := by decide
theorem test_decode_flush : gives .flush (decode .uop [0b0100]) = true := by decide
theorem test_decode_pflush : gives .pflush (decode .uop [0b0101]) = true := by decide
theorem test_decode_guard : gives .guard (decode .uop [0b0110]) = true := by decide
theorem test_decode_dpass : gives .dpass (decode .uop [0b0111]) = true := by decide
theorem test_decode_cmp8 : gives .cmp8 (decode .uop [0b1000]) = true := by decide
theorem test_decode_sel : gives .sel (decode .uop [0b1001]) = true := by decide
theorem test_decode_emitblk : gives .emitblk (decode .uop [0b1010]) = true := by decide
theorem test_decode_advance : gives .advance (decode .uop [0b1011]) = true := by decide
theorem test_decode_emptychk : gives .emptychk (decode .uop [0b1100]) = true := by decide
theorem test_decode_frame : gives .frame (decode .uop [0b1101]) = true := by decide
theorem test_decode_tx : gives .tx (decode .uop [0b1110]) = true := by decide
/-- The group of test vector T9: block 14. -/
theorem test_decode_group :
    gives (.group ⟨14, [0, 2, 0, 0, 0, 0, 0, 0]⟩) (decode .group [0x0E, 0, 2, 0, 0, 0, 0, 0, 0]) = true := by decide
/-- The frame of program P2. -/
theorem test_decode_wire :
    gives (.wire [⟨5, [1, 0, 0, 0, 0, 0, 0, 0]⟩])
      (decode .wire [0xAA, 0x55, 2, 0, 9, 5, 1, 0, 0, 0, 0, 0, 0, 0, 0x0A]) = true := by decide

/-- The third frame of program P3: two groups, length `00 12`. -/
theorem test_encode_wire :
    encode (.wire [⟨2, [0, 0, 0, 0, 0, 0, 0, 0]⟩, ⟨14, [0, 0, 0, 0, 0, 0, 0, 0]⟩]) =
      (.wire, [0xAA, 0x55, 2, 0, 0x12, 2, 0, 0, 0, 0, 0, 0, 0, 0, 0x0E, 0, 0, 0, 0, 0, 0, 0, 0, 0x0A]) := by decide

/-! Rejections, by name (R72, R73, R86). -/

theorem test_reject_command_bits : rejects .commandBits (decode .cmd [2]) = true := by decide
theorem test_reject_command_length : rejects .wordLength (decode .cmd []) = true := by decide
theorem test_reject_reset_word : rejects .resetWord (decode .pin [0]) = true := by decide
theorem test_reject_unused_tag : rejects .unusedTag (decode .uop [15]) = true := by decide
theorem test_reject_tag_bits : rejects .tagBits (decode .uop [16]) = true := by decide
theorem test_reject_group_length : rejects .groupLength (decode .group [0, 1]) = true := by decide
theorem test_reject_group_index : rejects .indexRange (decode .group [0x80, 0, 0, 0, 0, 0, 0, 0, 0]) = true := by decide
theorem test_reject_short_header : rejects .headerShort (decode .wire [0xAA, 0x55, 2, 0]) = true := by decide
theorem test_reject_sync : rejects .syncMarker (decode .wire [0x55, 0xAA, 2, 0, 9]) = true := by decide
theorem test_reject_type : rejects .messageType (decode .wire [0xAA, 0x55, 3, 0, 9]) = true := by decide
theorem test_reject_length_zero : rejects .lengthZero (decode .wire [0xAA, 0x55, 2, 0, 0, 0x0A]) = true := by decide
theorem test_reject_length_ten : rejects .lengthNotGroups (decode .wire [0xAA, 0x55, 2, 0, 10]) = true := by decide
theorem test_reject_length_1161 : rejects .lengthRange (decode .wire [0xAA, 0x55, 2, 4, 0x89]) = true := by decide
theorem test_reject_frame_length : rejects .frameLength (decode .wire [0xAA, 0x55, 2, 0, 9, 0x0A]) = true := by decide
theorem test_reject_terminator :
    rejects .terminator (decode .wire [0xAA, 0x55, 2, 0, 9, 5, 1, 0, 0, 0, 0, 0, 0, 0, 0]) = true := by decide
theorem test_reject_wire_index :
    rejects .indexRange (decode .wire [0xAA, 0x55, 2, 0, 9, 0x80, 1, 0, 0, 0, 0, 0, 0, 0, 0x0A]) = true := by decide
theorem test_reject_order :
    rejects .indexOrder (decode .wire [0xAA, 0x55, 2, 0, 18, 5, 0, 0, 0, 0, 0, 0, 0, 0, 4, 0, 0, 0, 0, 0, 0, 0, 0, 0x0A])
      = true := by decide

/-! The table's words (log 17). -/

theorem test_table_word_emitblk : decodeTableWord 8 10 = some .emitblk := by decide
theorem test_table_word_group :
    decodeTableWord 72 0x050100000000000000 = some (.group ⟨5, [1, 0, 0, 0, 0, 0, 0, 0]⟩) := by decide
theorem test_table_word_wire : decodeTableWord 24 0xAA5502 = some (.wire [⟨0, [0, 0, 0, 0, 0, 0, 0, 0]⟩]) := by decide
theorem test_table_word_reset : decodeTableWord 0 0 = some .reset := by decide
theorem test_table_word_shot : decodeTableWord 1 1 = some (.shot true) := by decide

/-! GATE: vectors G1 to G8. -/

/-- KEEPALIVE and `proceed` after GATE. -/
def gateAfter (link : Bool) (k : BitVec 4) : BitVec 4 × Bool := (gateKeepalive link k, gateProceed link k)

theorem test_gate_vectors :
    gateAfter true 10 = (10, true) ∧ gateAfter true 0 = (10, true) ∧ gateAfter true 4 = (10, true) ∧
    gateAfter false 10 = (9, true) ∧ gateAfter false 2 = (1, true) ∧ gateAfter false 1 = (0, false) ∧
    gateAfter false 0 = (0, false) ∧ gateAfter false 13 = (12, true) := by decide
theorem test_gate_writes_keepalive :
    nextHas (fun t => t.keepalive == 9 && t.proceed) (exec .gate State.reset) = true := by decide

/-! The packer. -/

/-- The worked PACKBIT run of section 2: after the eighth call `CUR[0] = 8D`. -/
def packbitSources : Memory := [(0, 1), (2, 1), (3, 1), (7, 1)]

theorem test_packbit_seven_calls :
    nextHas (fun t => t.acc == 0x0D && t.bitcnt == 7 && t.oidx == 0)
      (times 7 visitOp { State.reset with status := packbitSources }) = true := by decide +kernel
theorem test_packbit_flushes_at_eight :
    nextHas (fun t => t.cur == [(0, 0x8D)] && t.oidx == 1 && t.acc == 0 && t.bitcnt == 0)
      (exec .packbit { State.reset with status := packbitSources, acc := 0x0D, bitcnt := 7, pos := 7 }) = true := by
  decide +kernel
/-- Vector V8: plane 2, column 64 lands in byte 40. -/
theorem test_packrow_status :
    nextHas (fun t => t.cur == [(40, 1)] && t.oidx == 128 && t.pos == 1024)
      (exec .packrow { State.reset with status := [(64, 4)] }) = true := by decide +kernel
/-- Vector V3: FB[2][127] = 10 is row 3, byte 463. -/
theorem test_packrow_framebuffer :
    nextHas (fun t => t.cur == [(463, 0x80)])
      (exec .packrow { State.reset with fb := [(383, 0x10)], pos := 3072, oidx := 384 }) = true := by decide +kernel
theorem test_pack_completes :
    nextHas (fun t => decide (t.phase = .idle)) (exec .pack State.reset) = true := by decide +kernel
theorem test_flush_last_byte :
    nextHas (fun t => t.cur == [(1023, 0xFF)] && t.oidx == 1024)
      (exec .flush { State.reset with acc := 0xFF, oidx := 1023 }) = true := by decide
theorem test_flush_beyond_cur :
    (match exec .flush { State.reset with oidx := 1024 } with
      | .fault f => decide (f = .curOverrun)
      | _ => false) = true := by decide
theorem test_pflush_idle : nextHas (fun t => t.oidx == 1024) (exec .pflush { State.reset with oidx := 1024 }) = true := by decide
theorem test_pflush_partial :
    nextHas (fun t => t.cur == [(5, 3)] && t.oidx == 6)
      (exec .pflush { State.reset with acc := 3, bitcnt := 2, oidx := 5 }) = true := by decide
theorem test_guard_whole : nextHas (fun t => t.shapeOk) (exec .guard { State.reset with oidx := 1024 }) = true := by decide
/-- Vector V13's byte count. -/
theorem test_guard_short : nextHas (fun t => !t.shapeOk) (exec .guard { State.reset with oidx := 1016 }) = true := by decide

/-! The comparator and the selector. -/

/-- Vector T2: the last lane. -/
theorem test_cmp8_last_lane : nextHas (fun t => t.changed) (exec .cmp8 { State.reset with cur := [(7, 1)] }) = true := by decide
/-- Vector T6: the same bytes in another order are a change. -/
theorem test_cmp8_order :
    nextHas (fun t => t.changed) (exec .cmp8 { State.reset with cur := [(0, 1), (1, 2)], prev := [(0, 2), (1, 1)] }) = true := by
  decide
/-- Vectors T7a and T7c. -/
theorem test_sel_neither :
    nextHas (fun t => !t.forced && !t.included) (exec .sel { State.reset with blk := 7, cursor := 3 }) = true := by decide
theorem test_sel_forced :
    nextHas (fun t => t.forced && t.included) (exec .sel { State.reset with blk := 7, cursor := 7 }) = true := by decide
/-- Vector T9. -/
theorem test_emitblk_vector :
    nextHas (fun t => t.delta == [(9, 0x0E), (11, 2)] && t.dlen == 18 && t.prev == [(113, 2)])
      (exec .emitblk { State.reset with blk := 14, dlen := 9, cur := [(113, 2)] }) = true := by decide
theorem test_emitblk_index_range :
    (match exec .emitblk { State.reset with blk := 128 } with
      | .fault f => decide (f = .blockOutOfRange)
      | _ => false) = true := by decide
/-- Vector T8: 127 goes to 0, 5 to 6. -/
theorem test_advance_wraps : nextHas (fun t => t.cursor == 0) (exec .advance { State.reset with cursor := 127 }) = true := by decide
theorem test_advance : nextHas (fun t => t.cursor == 6) (exec .advance { State.reset with cursor := 5 }) = true := by decide
theorem test_group_as_emitblk :
    nextHas (fun t => t.delta == [(9, 0x0E), (11, 2)] && t.dlen == 18 && t.prev == [(113, 2)])
      (exec (.group ⟨14, [0, 2, 0, 0, 0, 0, 0, 0]⟩) { State.reset with dlen := 9 }) = true := by decide

/-- Program P3, first invocation, from the packed frame on: blocks 0 (forced), 14 and 57. -/
theorem test_dpass_program_p3 :
    nextHas (fun t => t.dlen == 27 && t.cursor == 1 && t.prev == [(113, 2), (463, 0x80)] &&
        t.delta == [(9, 0x0E), (11, 2), (18, 0x39), (26, 0x80)])
      (exec .dpass { State.reset with cur := [(113, 2), (463, 0x80)] }) = true := by decide +kernel

/-- Program P2 from the packed frame on: the document's end-to-end example. -/
theorem test_encode_program_p2 :
    nextHas (fun t => t.tx == [0xAA, 0x55, 2, 0, 9, 5, 1, 0, 0, 0, 0, 0, 0, 0, 0x0A] && t.prev == [(40, 1)] &&
        t.cursor == 6 && decide (t.outcome = .sent))
      (encodePart { State.reset with cur := [(40, 1)], cursor := 5 }) = true := by decide +kernel

/-! The framer. -/

theorem test_emptychk_empty : nextHas (fun t => t.empty) (exec .emptychk State.reset) = true := by decide
theorem test_emptychk_nonempty : nextHas (fun t => !t.empty) (exec .emptychk { State.reset with dlen := 9 }) = true := by decide
/-- Vector T11: data that look like framing are sent as they are. -/
theorem test_frame_no_escape :
    nextHas (fun t => t.tx == [0xAA, 0x55, 2, 0, 9, 0, 0xAA, 0x55, 0x0A, 0, 0, 0, 0, 0, 0x0A])
      (exec .frame { State.reset with delta := [(1, 0xAA), (2, 0x55), (3, 0x0A)], dlen := 9 }) = true := by decide
/-- Vector T10. -/
theorem test_length_field :
    lengthField 9 = [0, 9] ∧ lengthField 252 = [0, 0xFC] ∧ lengthField 261 = [1, 5] ∧ lengthField 297 = [1, 0x29] ∧
      lengthField 1152 = [4, 0x80] := by decide
theorem test_tx_appends :
    nextHas (fun t => t.tx == [1, 2, 3] && t.stream == [9, 2, 3])
      (exec .tx { State.reset with tx := [1], stream := [9], txArg := [2, 3] }) = true := by decide
theorem test_wire_sends :
    nextHas (fun t => t.tx == [0xAA, 0x55, 2, 0, 9, 5, 1, 0, 0, 0, 0, 0, 0, 0, 0x0A])
      (exec (.wire [⟨5, [1, 0, 0, 0, 0, 0, 0, 0]⟩]) State.reset) = true := by decide

/-! SHOT and RESET. -/

/-- Vector T15: `force` does not override the gate. -/
theorem test_shot_suppressed :
    nextHas (fun t => decide (t.outcome = .suppressed) && t.tx == [] && t.cursor == 3 && t.keepalive == 0 && t.done)
      (exec (.shot true) { State.reset with keepalive := 0, cursor := 3 }) = true := by decide
theorem test_shot_busy_ignored :
    nextHas (fun t => decide (t = { State.reset with phase := .delta })) (exec (.shot true) { State.reset with phase := .delta })
      = true := by decide
/-- RESET in mid-invocation: the state is the reset state's, what was sent stays sent (R222). -/
theorem test_reset_mid_invocation :
    nextHas (fun t => t.prev == [] && t.cursor == 0 && t.keepalive == 10 && decide (t.phase = .idle) && t.stream == [0xAA])
      (step { State.reset with
        rst := true, phase := .frame, prev := [(3, 7)], cursor := 9, keepalive := 2, tx := [0xAA], stream := [0xAA] })
      = true := by decide

/-- The tables of R191 and R20. -/
theorem test_outcome_codes :
    [ExitCode.sent, .suppressed, .abortedShape, .skippedEmpty].map ExitCode.code = [0, 1, 2, 3] ∧
      (List.range 4).map (fun n => (exitOfCode (Fin.ofNat 4 n)).code.toNat) = [0, 1, 2, 3] := by decide
theorem test_phase_codes :
    [Phase.idle, .gate, .pack, .guard, .delta, .frame].map Phase.code = [0, 1, 2, 3, 4, 5] := by decide
/-- The port after a suppressed invocation, and after one that is sent. -/
theorem test_outcome_port :
    nextHas (fun t => t.outcomePort == 1) (exec (.shot false) { State.reset with keepalive := 0 }) = true ∧
    nextHas (fun t => t.outcomePort == 0) (encodePart { State.reset with outcome := .suppressed }) = true := by decide +kernel

/-! The sequencer and the step. -/

/-- The end of program P4: the counter runs out and stays at 0 (`TICK.NL` twice). -/
theorem test_tick_no_link_twice :
    nextHas (fun t => decide (t.outcome = .suppressed) && t.keepalive == 0 && t.stream == [] && t.stimuli == [])
      (times 4 step { State.reset with keepalive := 1, stimuli := repeatStatement 2 tickNoLinkStatement }) = true := by decide
theorem test_frame_hands_over_last_byte :
    nextHas (fun t => decide (t.phase = .idle) && decide (t.outcome = .sent) && t.done && t.tx.length == 15)
      (step { State.reset with phase := .frame, dlen := 9, txReady := true, tx := List.replicate 14 0 }) = true := by decide

/-- A `start` held at 1 over an exit begins another invocation (log 25: the level is the model's choice). -/
theorem test_start_is_a_level :
    nextHas (fun t => decide (t.phase = .gate) && decide (t.outcome = .suppressed))
      (times 2 step { State.reset with phase := .gate, keepalive := 1, start := true }) = true := by decide
theorem test_start_enters_gate :
    nextHas (fun t => decide (t.phase = .gate) && t.force && t.busy)
      (step { State.reset with stimuli := [.pins false true true true false] }) = true := by decide
theorem test_gate_moves_to_pack :
    nextHas (fun t => decide (t.phase = .pack) && t.pos == 0) (step { State.reset with phase := .gate, linkPresent := true })
      = true := by decide
theorem test_last_packbit_moves_to_guard :
    nextHas (fun t => decide (t.phase = .guard) && t.oidx == 1024)
      (step { State.reset with phase := .pack, pos := 8191, oidx := 1023, bitcnt := 7 }) = true := by decide
theorem test_short_frame_aborts :
    nextHas (fun t => decide (t.phase = .idle) && decide (t.outcome = .abortedShape))
      (step { State.reset with phase := .guard, oidx := 1016 }) = true := by decide
theorem test_last_block_moves_to_frame :
    nextHas (fun t => decide (t.phase = .frame) && t.cursor == 0 && t.dlen == 9)
      (step { State.reset with phase := .delta, blk := 127, cursor := 127 }) = true := by decide
theorem test_empty_payload_skips :
    nextHas (fun t => decide (t.phase = .idle) && decide (t.outcome = .skippedEmpty))
      (step { State.reset with phase := .frame }) = true := by decide
theorem test_source_change_in_pack_refused :
    (match step { State.reset with phase := .pack, pos := 5, stimuli := [.srcByte 0 9 1] } with
      | .refused e => decide (e = .sourceChangedDuringPack)
      | _ => false) = true := by decide
theorem test_source_rows :
    nextHas (fun t => srcByte t 3 127 == 0x10 && t.fb == [(383, 0x10)])
      (step { State.reset with stimuli := [.srcByte 3 127 0x10] }) = true := by decide
theorem test_step_runs_table_word :
    nextHas (fun t => t.cursor == 1) (step (State.reset.withFetchWord 8 11)) = true := by decide

/-! Witnesses: states and operands that meet the hypotheses of the statements, at the ends of the ranges their clauses name. -/

/-- An idle state with the link present and a packed frame in PREV. -/
def idleLinked : State := { State.reset with linkPresent := true }

/-- A state in which the sequencer is sending. -/
def sending : State :=
  { State.reset with phase := .frame, dlen := 9, tx := [0xAA], stream := [0xAA] }

theorem witness_DecodingAnEncodingGivesTheInstruction :
    (Instr.wire [⟨0, [0, 0, 0, 0, 0, 0, 0, 0]⟩, ⟨127, [0, 0, 0, 0, 0, 0, 0, 0]⟩]).wf = true := by decide
theorem witness_EveryAcceptedWordIsItsInstructionsEncoding : decode .cmd [1] = .ok (.shot true) := by rfl
theorem witness_StepRunsThePresentedOperation :
    ({ State.reset with bench := some (.uop, [11]) }.bench = some (.uop, [11]) ∧ State.reset.rst = false ∧
      decode .uop [11] = .ok .advance) ∧
    (State.reset.bench = none ∧ { State.reset with stimuli := [.command true] }.stimuli = .command true :: []) ∧
    { State.reset with stimuli := [.reset] }.stimuli = .reset :: [] := ⟨⟨rfl, rfl, rfl⟩, ⟨rfl, rfl⟩, rfl⟩
theorem witness_StepRunsATableWord : decodeTableWord 8 14 = some .tx := by decide
theorem witness_StepRefusesWhatDoesNotDecode :
    { State.reset with bench := some (.uop, [15]) }.bench = some (.uop, [15]) ∧ State.reset.rst = false ∧
      decode .uop [15] = .error .unusedTag := ⟨rfl, rfl, rfl⟩
theorem witness_ResetPinWinsInEveryPhase :
    State.reset.bench = none ∧
    { State.reset with stimuli := [.pins true true true true true] }.stimuli = .pins true true true true true :: [] ∧
    ({ State.reset with rst := true }.rst = true ∧ { State.reset with rst := true }.stimuli = []) ∧
    { State.reset with rst := true, stimuli := [.command true] }.stimuli = .command true :: [] ∧
    { State.reset with rst := true, bench := some (.cmd, [0]) }.bench = some (.cmd, [0]) :=
  ⟨rfl, rfl, ⟨rfl, rfl⟩, rfl, rfl⟩
theorem witness_GateFollowsItsPolicy :
    idleLinked.linkPresent = true ∧ (State.reset.linkPresent = false ∧ 0 < State.reset.keepalive.toNat) ∧
    { State.reset with keepalive := 0 }.keepalive.toNat = 0 ∧
    nextHas (fun t => !t.proceed) (exec .gate { State.reset with keepalive := 1 }) = true := by decide
theorem witness_NineInvocationsProceedWithoutTheLink :
    State.reset.phase = .idle ∧ State.reset.linkPresent = false ∧ State.reset.keepalive = 10 := by decide
theorem witness_PackbitPlacesOneSourceBit :
    State.reset.cur.wf = true ∧ State.reset.bitcnt.toNat ≠ 7 ∧
    ({ State.reset with bitcnt := 7, oidx := 1023 }.bitcnt.toNat = 7 ∧
      { State.reset with bitcnt := 7, oidx := 1023 }.oidx.toNat < 1024) ∧
    ({ State.reset with bitcnt := 7, oidx := 1024 }.bitcnt.toNat = 7 ∧
      1024 ≤ { State.reset with bitcnt := 7, oidx := 1024 }.oidx.toNat) := by decide
theorem witness_FlushWritesOneByteOfCur :
    State.reset.cur.wf = true ∧ { State.reset with oidx := 1023 }.oidx.toNat < 1024 ∧
      1024 ≤ { State.reset with oidx := 1024 }.oidx.toNat := by decide
theorem witness_PflushWritesAPartialByteOnly :
    State.reset.cur.wf = true ∧ State.reset.bitcnt.toNat = 0 ∧
    ({ State.reset with bitcnt := 1, oidx := 1023 }.bitcnt.toNat ≠ 0 ∧
      { State.reset with bitcnt := 1, oidx := 1023 }.oidx.toNat < 1024) ∧
    1024 ≤ { State.reset with bitcnt := 1, oidx := 1024 }.oidx.toNat := by decide
theorem witness_PackrowPacksOneRow :
    State.reset.cur.wf = true ∧ State.reset.bitcnt.toNat < 8 ∧
    { State.reset with oidx := 896 }.oidx.toNat + 128 ≤ 1024 ∧ State.reset.bitcnt.toNat = 0 ∧ State.reset.acc = 0 ∧
    1024 < { State.reset with oidx := 897 }.oidx.toNat + 128 := by decide
theorem witness_PackComputesTheFrameLayout : State.reset.cur.wf = true := by decide
theorem witness_PackLosesNothing :
    State.reset.cur.wf = true ∧ (∃ t, exec .pack State.reset = .next t) := by
  refine ⟨by decide, ?_⟩
  have h := test_pack_completes
  cases hx : exec .pack State.reset with
  | next t => exact ⟨t, rfl⟩
  | fault f => rw [hx] at h; exact absurd h Bool.false_ne_true
  | refused r => rw [hx] at h; exact absurd h Bool.false_ne_true
theorem witness_ABlockIsHalfAPixelLine : State.reset.cur.wf = true := by decide
theorem witness_Cmp8DetectsAnyDifference :
    { State.reset with blk := 127 }.blk.toNat < 128 ∧ 128 ≤ { State.reset with blk := 128 }.blk.toNat := by decide
theorem witness_EmitblkAppendsTheGroupAndUpdatesPrev :
    State.reset.delta.wf = true ∧ State.reset.prev.wf = true ∧
    ({ State.reset with blk := 127, dlen := 1143 }.blk.toNat < 128 ∧
      { State.reset with blk := 127, dlen := 1143 }.dlen.toNat + 9 ≤ 1152) ∧
    128 ≤ { State.reset with blk := 128 }.blk.toNat ∧
    ({ State.reset with dlen := 1144 }.blk.toNat < 128 ∧ 1152 < { State.reset with dlen := 1144 }.dlen.toNat + 9) := by decide
theorem witness_GroupAppendsItselfAndUpdatesPrev :
    Group.wf ⟨127, [0, 0, 0, 0, 0, 0, 0, 0]⟩ = true ∧ { State.reset with dlen := 1143 }.dlen.toNat + 9 ≤ 1152 ∧
    1152 < { State.reset with dlen := 1144 }.dlen.toNat + 9 ∧ Group.wf ⟨128, [0, 0, 0, 0, 0, 0, 0, 0]⟩ = false ∧
    State.reset.delta.wf = true ∧ State.reset.prev.wf = true := by decide
theorem witness_DpassEmitsExactlyTheSelectedBlocks : State.reset.prev.wf = true ∧ State.reset.delta.wf = true := by decide
theorem witness_ABlockThatIsNotIncludedCostsNothing :
    let s := { State.reset with phase := .delta, blk := 127, cursor := 3 }
    s.bench = none ∧ s.stimuli = [] ∧ s.rst = false ∧ s.phase = .delta ∧ s.blk.toNat < 128 ∧
      selected s.force s.cursor s.cur s.prev s.blk.toNat = false := by decide
theorem witness_AdvanceStepsTheCursorOncePerEncodedInvocation :
    State.reset.phase = .idle ∧
    nextHas (fun t => decide (t.outcome = .suppressed)) (exec (.shot false) { State.reset with keepalive := 1 }) = true ∧
    nextHas (fun t => decide (t.outcome = .sent)) (encodePart State.reset) = true := by decide +kernel
theorem witness_FrameSendsHeaderPayloadAndTerminator :
    { State.reset with dlen := 1152 }.dlen.toNat ≤ 1152 ∧ 1152 < { State.reset with dlen := 1153 }.dlen.toNat := by decide
theorem witness_WireTransmitsItsFrame :
    wfPayload [⟨127, [0, 0, 0, 0, 0, 0, 0, 0]⟩] = true ∧ wfPayload [] = false := by decide
/-- The gate's clause at KEEPALIVE 2 without the link and at 0 with it. -/
theorem witness_ShotSendsTheSelectedBlocks :
    State.reset.phase = .idle ∧ State.reset.buffersWf = true ∧
    proceeds false { State.reset with keepalive := 2 }.keepalive = true ∧
    proceeds idleLinked.linkPresent { idleLinked with keepalive := 0 }.keepalive = true := by decide
theorem witness_FullRefreshSendsEveryBlock :
    idleLinked.phase = .idle ∧ idleLinked.buffersWf = true ∧ proceeds idleLinked.linkPresent idleLinked.keepalive = true := by
  decide
theorem witness_AReceiversMirrorFollowsPrev :
    (⟨true, true, [(0, 1)], []⟩ : Invocation).status.wf = true ∧ (⟨true, true, [], []⟩ : Invocation).fb.wf = true ∧
    State.reset.phase = .idle ∧ State.reset.buffersWf = true ∧ Memory.wf [] = true ∧ sameFrame [] State.reset.prev :=
  ⟨by decide, by decide, by decide, by decide, by decide, fun _ _ => rfl⟩
theorem witness_ShotWithoutLinkAndGraceIsSuppressed :
    State.reset.phase = .idle ∧ State.reset.linkPresent = false ∧ { State.reset with keepalive := 1 }.keepalive.toNat ≤ 1 := by
  decide
theorem witness_ShotWhileBusyIsIgnored : sending.phase ≠ .idle := by decide
theorem witness_EveryInvocationEndsSentOrSuppressed : State.reset.phase = .idle := by decide
theorem witness_ThePortsShowTheCodesOfOutcomeAndPhase :
    State.reset.phase = .idle ∧ proceeds State.reset.linkPresent State.reset.keepalive = true ∧
    proceeds false { State.reset with keepalive := 1 }.keepalive = false := by decide
theorem witness_TheDocumentsEndToEndExample :
    let s := { idleLinked with cursor := 5 }
    s.phase = .idle ∧ s.buffersWf = true ∧ s.linkPresent = true ∧ s.cursor = 5 ∧ (∀ a, s.prev.read a = 0) ∧
      ∀ R c p, R < 8 → c < 128 → p < 8 → (srcByte s R c).getLsbD p = true → 16 * R + 2 * p + c / 64 = 5 := by
  refine ⟨by decide, by decide, by decide, by decide, fun _ => rfl, ?_⟩
  intro R c p _ _ _ h
  have h0 : srcByte { idleLinked with cursor := 5 } R c = 0 := by
    unfold srcByte
    split <;> rfl
  rw [h0] at h
  simp at h
/-- Blank sources are packed in a blank PREV. -/
theorem witness_AnUnchangedDisplaySendsTheForcedBlockOnly :
    idleLinked.phase = .idle ∧ idleLinked.buffersWf = true ∧ proceeds idleLinked.linkPresent idleLinked.keepalive = true ∧
      packedFrom idleLinked idleLinked.prev := by
  refine ⟨by decide, by decide, by decide, ?_⟩
  intro R p k j _ _ _ _
  have h0 : srcByte idleLinked R (8 * k + j) = 0 := by
    unfold srcByte
    split <;> rfl
  rw [h0]
  exact (BitVec.getLsbD_zero (i := j)).trans (BitVec.getLsbD_zero (i := p)).symm
theorem witness_TheForcedSweepCoversEveryBlock :
    idleLinked.phase = .idle ∧ idleLinked.buffersWf = true ∧ idleLinked.linkPresent = true ∧
      packedFrom idleLinked idleLinked.prev :=
  ⟨by decide, by decide, by decide, witness_AnUnchangedDisplaySendsTheForcedBlockOnly.2.2.2⟩
/-- Nine in the grace, one suppressed, 119 with the link. -/
theorem witness_EveryBlockIsSentWithinAnyHundredTwentyEightInvocations :
    State.reset.phase = .idle ∧ State.reset.buffersWf = true ∧
    128 ≤ passes (List.replicate 10 ⟨false, false, [], []⟩ ++ List.replicate 119 ⟨false, true, [], []⟩)
      State.reset.keepalive := by decide +kernel
theorem witness_InvocationsDependOnThePersistentCellsOnly :
    let u := { State.reset with cur := [(3, 7)], acc := 9, force := true, outcome := .suppressed }
    u.phase = .idle ∧ u.buffersWf = true ∧ State.reset.buffersWf = true ∧ State.reset.prev = u.prev ∧
      State.reset.cursor = u.cursor ∧ State.reset.keepalive = u.keepalive ∧ State.reset.linkPresent = u.linkPresent ∧
      State.reset.status = u.status ∧ State.reset.fb = u.fb := by decide
theorem witness_TheSequencedInvocationIsShot :
    let s := { State.reset with start := true, txReady := true }
    s.bench = none ∧ s.phase = .idle ∧ s.rst = false ∧ s.start = true ∧ s.stimuli = [] ∧ s.txReady = true := by decide
/-- A transport that is ready at every other move only, and `start` raised once. -/
def slowTransport (n : Nat) : Pins := ⟨decide (n = 0), false, true, decide (n % 2 = 0)⟩
theorem witness_fairTransport : fairTransport slowTransport :=
  fun n => ⟨2 * n, by omega, by simp [slowTransport]⟩
theorem witness_TheSequencedInvocationIsShotUnderAFairTransport :
    State.reset.bench = none ∧ State.reset.phase = .idle ∧ (slowTransport 0).start = true ∧ fairTransport slowTransport :=
  ⟨rfl, rfl, by decide, witness_fairTransport⟩
theorem witness_SequencedInvocationsEndUnderAFairTransport :
    sending.SequenceInv ∧ sending.busy = true ∧ fairTransport slowTransport :=
  ⟨by constructor <;> decide, by decide, witness_fairTransport⟩
theorem witness_AnUnfairTransportHoldsTheBlockInFrame :
    sending.SequenceInv ∧ sending.phase = .frame ∧
      ∀ n, ((fun _ => ⟨false, false, true, false⟩ : Nat → Pins) n).ready = false :=
  ⟨by constructor <;> decide, by decide, fun _ => rfl⟩
theorem witness_TheSequencerKeepsGoing :
    sending.SequenceInv ∧ sending.snapshotKept = true := ⟨by constructor <;> decide, by decide⟩
/-- In mid-frame, and before the first byte. -/
theorem witness_FrameHandsOverOneByteOrWaits :
    sending.SequenceInv ∧ { sending with tx := [] }.SequenceInv ∧ sending.stimuli = [] ∧ sending.rst = false ∧
      sending.phase = .frame ∧ sending.tx ≠ [] :=
  ⟨by constructor <;> decide, by constructor <;> decide, by decide, by decide, by decide, by decide⟩
theorem witness_SequencedInvocationsEndSentOrSuppressed :
    let s := { State.reset with phase := .gate, keepalive := 1 }
    s.SequenceInv ∧ s.busy = true ∧ nextHas (fun t => !t.busy && decide (t.resets = s.resets)) (step s) = true :=
  ⟨by constructor <;> decide, by decide, by decide⟩
theorem witness_StartIsIgnoredWhileBusy :
    sending.bench = none ∧ sending.phase ≠ .idle ∧ sending.rst = false ∧ sending.stimuli = [] := by decide
theorem witness_EveryStepKeepsTheInvariant :
    State.reset.Inv ∧ nextHas (fun _ => true) (step State.reset) = true := ⟨by constructor <;> decide, by decide⟩
theorem witness_OnlyTheirWritersChangeThePersistentCells :
    nextHas (fun t => decide (t.prev ≠ [])) (exec .emitblk { State.reset with cur := [(3, 7)] }) = true ∧
    nextHas (fun t => decide (t.cursor ≠ 0)) (exec .advance State.reset) = true ∧
    nextHas (fun t => decide (t.keepalive ≠ 10)) (exec .gate State.reset) = true ∧
    nextHas (fun t => decide (t.cursor ≠ 0)) (tick { State.reset with phase := .delta, blk := 127 }) = true ∧
    nextHas (fun t => decide (t.keepalive ≠ 10)) (tick { State.reset with phase := .gate }) = true ∧
    nextHas (fun t => decide (t.prev ≠ [])) (tick { State.reset with phase := .delta, cur := [(3, 7)] }) = true := by decide
/-- A SHOT, a move of GATE, and a byte sent where the port has no `tx_ready` or it is 1. -/
theorem witness_ResetAndShotAreTheOnlyWaysIn :
    State.reset.bench = none ∧
    nextHas (fun t => decide (t.keepalive ≠ 1)) (step { State.reset with keepalive := 1, stimuli := [.command false] }) = true ∧
    nextHas (fun t => decide (t.keepalive ≠ 10)) (step { State.reset with phase := .gate }) = true ∧
    nextHas (fun t => decide (t.stream ≠ [0xAA])) (step { sending with txReady := true }) = true ∧
    nextHas (fun t => decide (t.prev ≠ [(3, 7)])) (step { sending with prev := [(3, 7)], stimuli := [.reset] }) = true := by decide
theorem witness_TheBlockOnlyReadsTheSources :
    nextHas (fun _ => true) (exec .gate State.reset) = true ∧ nextHas (fun _ => true) (tick State.reset) = true := by decide
theorem witness_TheBlockLeavesItsInputPinsAlone :
    nextHas (fun _ => true) (exec .gate State.reset) = true ∧ nextHas (fun _ => true) (tick State.reset) = true := by decide
theorem witness_TheStreamOnlyGrows : nextHas (fun _ => true) (step State.reset) = true := by decide
theorem witness_ASourceByteChangesBetweenSnapshotsOnly :
    State.reset.bench = none ∧ State.reset.status.wf = true ∧ State.reset.fb.wf = true ∧
    { State.reset with stimuli := [.srcByte 7 127 1] }.stimuli = .srcByte 7 127 1 :: [] ∧
    ({ State.reset with phase := .pack, pos := 1 }.phase = .pack ∧ { State.reset with phase := .pack, pos := 1 }.pos ≠ 0) ∧
    { State.reset with phase := .pack }.pos = 0 := by decide

end Sys2Proof.Tests
end

section
/-! The frame of the block toward its environment: no operation and no move of the sequencer changes an input of the block. -/

namespace Sys2Proof.Machine

/-- The parts of the state the block does not own: the sources (R33), the levels of the input pins (R30), what the environment
does next (log 6) and the test bench (log 26). -/
structure Environment where
  status : Memory
  fb : Memory
  rst : Bool
  start : Bool
  forcePin : Bool
  linkPresent : Bool
  txReady : Bool
  stimuli : List Stimulus
  bench : Option (Format × List Byte)

/-- The environment's part of a state. -/
def State.environment (s : State) : Environment :=
  ⟨s.status, s.fb, s.rst, s.start, s.forcePin, s.linkPresent, s.txReady, s.stimuli, s.bench⟩

/-- Wherever the operation answers a next state, the environment's part stands as it stood. -/
def KeepsEnvironment (op : State → Res) : Prop :=
  ∀ ⦃s t : State⦄, op s = .next t → t.environment = s.environment

/-! The operations that always answer a next state -/

@[simp] theorem acceptStart_environment (f : Bool) (s : State) : (acceptStart f s).environment = s.environment := rfl
@[simp] theorem exitInvocation_environment (c : ExitCode) (s : State) :
    (exitInvocation c s).environment = s.environment := rfl
@[simp] theorem txOp_environment (s : State) : (txOp s).environment = s.environment := rfl
@[simp] theorem txBytes_environment (bs : List Byte) (s : State) : (txBytes bs s).environment = s.environment := rfl
@[simp] theorem gateOp_environment (s : State) : (gateOp s).environment = s.environment := rfl
@[simp] theorem placeBit_environment (s : State) : (placeBit s).environment = s.environment := rfl
@[simp] theorem packInit_environment (s : State) : (packInit s).environment = s.environment := rfl
@[simp] theorem guardOp_environment (s : State) : (guardOp s).environment = s.environment := rfl
@[simp] theorem selOp_environment (s : State) : (selOp s).environment = s.environment := rfl
@[simp] theorem advanceOp_environment (s : State) : (advanceOp s).environment = s.environment := rfl
@[simp] theorem passInit_environment (s : State) : (passInit s).environment = s.environment := rfl
@[simp] theorem emptyChkOp_environment (s : State) : (emptyChkOp s).environment = s.environment := rfl

@[simp] theorem resetOp_environment (s : State) : (resetOp s).environment = s.environment := by
  simp only [State.environment, resetOp_status, resetOp_fb, resetOp_rst, resetOp_start, resetOp_forcePin,
    resetOp_linkPresent, resetOp_txReady, resetOp_stimuli, resetOp_bench]

@[simp] theorem sendFrame_environment (p : List Byte) (s : State) : (sendFrame p s).environment = s.environment := by
  simp only [sendFrame, txBytes_environment]

/-! Sequences and loops -/

theorem KeepsEnvironment.andThen {f g : State → Res} (hf : KeepsEnvironment f) (hg : KeepsEnvironment g) :
    KeepsEnvironment fun s => andThen (f s) g := by
  intro s t h
  obtain ⟨u, hu, ht⟩ := andThen_eq_next.1 h
  exact (hg ht).trans (hf hu)

theorem KeepsEnvironment.times {f : State → Res} (hf : KeepsEnvironment f) (n : Nat) : KeepsEnvironment (times n f) := by
  intro s t h
  exact times_keeps (P := fun u => u.environment = s.environment) (fun _ _ hu hv => (hf hv).trans hu) rfl h

/-! The packer (spec/42_bitplane_packer.md): it reads the sources at every visit -/

theorem flushOp_keepsEnvironment : KeepsEnvironment flushOp := by
  intro s t h
  obtain ⟨-, rfl⟩ := flushOp_eq_next.1 h
  rfl

theorem packBitOp_keepsEnvironment : KeepsEnvironment packBitOp := by
  intro s t h
  obtain ⟨-, rfl⟩ | ⟨-, -, rfl⟩ := packBitOp_eq_next.1 h
  · exact placeBit_environment s
  · rfl

theorem visitOp_keepsEnvironment : KeepsEnvironment visitOp := by
  intro s t h
  obtain ⟨u, hu, rfl⟩ := visitOp_eq_next.1 h
  have hbit := packBitOp_keepsEnvironment hu
  exact hbit

theorem packRowOp_keepsEnvironment : KeepsEnvironment packRowOp := by
  intro s t h
  unfold packRowOp at h
  have hvisits := visitOp_keepsEnvironment.times _ h
  exact hvisits

theorem pflushOp_keepsEnvironment : KeepsEnvironment pflushOp := by
  intro s t h
  obtain ⟨-, rfl⟩ | ⟨-, -, rfl⟩ := pflushOp_eq_next.1 h <;> rfl

theorem packOp_keepsEnvironment : KeepsEnvironment packOp := by
  intro s t h
  obtain ⟨u, hu, ht⟩ := packOp_eq_next.1 h
  have hrows := packRowOp_keepsEnvironment.times 8 hu
  have hflush := pflushOp_keepsEnvironment ht
  rw [hflush, hrows, packInit_environment]

/-! The selector (spec/43_delta_selector.md) -/

theorem cmp8Op_keepsEnvironment : KeepsEnvironment cmp8Op := by
  intro s t h
  obtain ⟨-, rfl⟩ := cmp8Op_eq_next.1 h
  rfl

theorem emitGroupOp_keepsEnvironment (b : Nat) (data : List Byte) : KeepsEnvironment (emitGroupOp b data) := by
  intro s t h
  obtain ⟨-, -, rfl⟩ := emitGroupOp_eq_next.1 h
  rfl

theorem emitBlkOp_keepsEnvironment : KeepsEnvironment emitBlkOp :=
  fun s _ h => emitGroupOp_keepsEnvironment s.blk.toNat (blkOf s.cur s.blk.toNat) h

theorem blockOp_keepsEnvironment : KeepsEnvironment blockOp := by
  intro s t h
  obtain ⟨u, v, hu, hv, rfl⟩ := blockOp_eq_next.1 h
  have hcmp : u.environment = s.environment := cmp8Op_keepsEnvironment hu
  obtain ⟨-, hemit⟩ | ⟨-, rfl⟩ := hv
  · exact (emitBlkOp_keepsEnvironment hemit).trans hcmp
  · exact hcmp

theorem dpassOp_keepsEnvironment : KeepsEnvironment dpassOp := by
  intro s t h
  obtain ⟨u, hu, rfl⟩ := dpassOp_eq_next.1 h
  have hblocks := blockOp_keepsEnvironment.times 128 hu
  rw [advanceOp_environment, hblocks, passInit_environment]

/-! The framer (spec/44_wire_framer.md) -/

theorem frameOp_keepsEnvironment : KeepsEnvironment frameOp := by
  intro s t h
  obtain ⟨-, rfl⟩ := frameOp_eq_next.1 h
  exact sendFrame_environment _ s

theorem transmitPart_keepsEnvironment : KeepsEnvironment transmitPart := by
  intro s t h
  obtain ⟨-, rfl⟩ | ⟨-, -, rfl⟩ := transmitPart_eq_next.1 h
  · rfl
  · simp only [exitInvocation_environment, sendFrame_environment, emptyChkOp_environment]

/-! SHOT as one transition (R101) -/

theorem encodePart_keepsEnvironment : KeepsEnvironment encodePart :=
  dpassOp_keepsEnvironment.andThen transmitPart_keepsEnvironment

theorem assemblePart_keepsEnvironment : KeepsEnvironment assemblePart := by
  refine packOp_keepsEnvironment.andThen fun s t h => ?_
  split at h
  · have hencode := encodePart_keepsEnvironment h
    rw [hencode, guardOp_environment]
  · cases h
    rfl

theorem gatePart_keepsEnvironment : KeepsEnvironment gatePart := by
  intro s t h
  unfold gatePart at h
  split at h
  · have hassemble := assemblePart_keepsEnvironment h
    rw [hassemble, gateOp_environment]
  · cases h
    rfl

theorem shotOp_keepsEnvironment (f : Bool) : KeepsEnvironment (shotOp f) := by
  intro s t h
  unfold shotOp at h
  split at h
  · have hgate := gatePart_keepsEnvironment h
    rw [hgate, acceptStart_environment]
  · cases h
    rfl

/-! The two data formats, with the effect of the rule their rows name (log 8) -/

theorem execGroup_keepsEnvironment (g : Group) : KeepsEnvironment (execGroup g) := by
  intro s t h
  unfold execGroup at h
  split at h
  · exact emitGroupOp_keepsEnvironment _ _ h
  · cases h

theorem execWire_keepsEnvironment (gs : List Group) : KeepsEnvironment (execWire gs) := by
  intro s t h
  unfold execWire at h
  split at h
  · cases h
    exact sendFrame_environment _ s
  · cases h

/-- No operation of the table changes what the environment owns. -/
theorem exec_keepsEnvironment (i : Instr) : KeepsEnvironment (exec i) := by
  intro s t h
  cases i with
  | shot f => exact shotOp_keepsEnvironment f h
  | reset => cases h; exact resetOp_environment s
  | gate => cases h; exact gateOp_environment s
  | pack => exact packOp_keepsEnvironment h
  | packrow => exact packRowOp_keepsEnvironment h
  | packbit => exact packBitOp_keepsEnvironment h
  | flush => exact flushOp_keepsEnvironment h
  | pflush => exact pflushOp_keepsEnvironment h
  | guard => cases h; exact guardOp_environment s
  | dpass => exact dpassOp_keepsEnvironment h
  | cmp8 => exact cmp8Op_keepsEnvironment h
  | sel => cases h; exact selOp_environment s
  | emitblk => exact emitBlkOp_keepsEnvironment h
  | advance => cases h; exact advanceOp_environment s
  | emptychk => cases h; exact emptyChkOp_environment s
  | frame => exact frameOp_keepsEnvironment h
  | tx => cases h; exact txOp_environment s
  | group g => exact execGroup_keepsEnvironment g h
  | wire gs => exact execWire_keepsEnvironment gs h

/-! The moves of the sequencer (R20) -/

@[simp] theorem idleMove_environment (s : State) : (idleMove s).environment = s.environment := by
  unfold idleMove
  split <;> rfl

@[simp] theorem gateMove_environment (s : State) : (gateMove s).environment = s.environment := by
  unfold gateMove
  split <;> rfl

@[simp] theorem guardMove_environment (s : State) : (guardMove s).environment = s.environment := by
  unfold guardMove
  split <;> rfl

@[simp] theorem sendMove_environment (s : State) : (sendMove s).environment = s.environment := by
  unfold sendMove
  split
  · rfl
  · split_ifs <;> rfl

theorem packMove_keepsEnvironment : KeepsEnvironment packMove := by
  refine visitOp_keepsEnvironment.andThen fun s t h => ?_
  split at h
  · obtain ⟨u, hu, ht⟩ := andThen_eq_next.1 h
    cases ht
    have hflush := pflushOp_keepsEnvironment hu
    exact hflush
  · cases h
    rfl

theorem deltaMove_keepsEnvironment : KeepsEnvironment deltaMove := by
  refine blockOp_keepsEnvironment.andThen fun s t h => ?_
  split at h <;> (cases h; rfl)

theorem frameMove_keepsEnvironment : KeepsEnvironment frameMove := by
  intro s t h
  unfold frameMove at h
  split_ifs at h <;> cases h
  · rfl
  · exact sendMove_environment (emptyChkOp s)
  · exact sendMove_environment s

theorem phaseMove_keepsEnvironment : KeepsEnvironment phaseMove := by
  intro s t h
  unfold phaseMove at h
  generalize s.phase = p at h
  cases p with
  | idle => cases h; exact idleMove_environment s
  | gate => cases h; exact gateMove_environment s
  | pack => exact packMove_keepsEnvironment h
  | guard => cases h; exact guardMove_environment s
  | delta => exact deltaMove_keepsEnvironment h
  | frame => exact frameMove_keepsEnvironment h

/-- No move of the sequencer, nor RESET on the pin, changes what the environment owns. -/
theorem tick_keepsEnvironment : KeepsEnvironment tick := by
  intro s t h
  obtain ⟨-, rfl⟩ | ⟨-, hmove⟩ := unlessReset_eq_next.1 h
  · exact resetOp_environment s
  · exact phaseMove_keepsEnvironment hmove

/-! The read port (R33) -/

/-- `src_data` is a byte of STATUS at row 0 and of FB at a row above (R43). -/
theorem srcData_eq (s : State) :
    s.srcData = if s.srcRow = 0 then s.status.read s.srcCol.toNat
      else s.fb.read (128 * (s.srcRow.toNat - 1) + s.srcCol.toNat) := by
  have hrow : s.srcRow.toNat = 0 ↔ s.srcRow = 0 := BitVec.toNat_inj (y := 0)
  simp only [State.srcData, srcByte, hrow, Config.fbCols]

/-- Settles O51: the port reads the source named by row and column, and the sources are part of the environment, which every
operation and every move keeps. -/
theorem theBlockOnlyReadsTheSources : Obligations.TheBlockOnlyReadsTheSources := by
  refine ⟨srcData_eq, fun i s t h => ?_⟩
  have henv : t.environment = s.environment := h.elim (exec_keepsEnvironment i ·) (tick_keepsEnvironment ·)
  exact ⟨congrArg Environment.status henv, congrArg Environment.fb henv⟩

end Sys2Proof.Machine
end

section
/-! The liveness gate (spec/41_liveness_gate.md): its two outputs by cases of the link and KEEPALIVE, GATE as an equation, and
what SHOT answers where the gate says no. -/

namespace Sys2Proof.Machine

/-! The two outputs (R120, R121) -/

@[simp] theorem gateKeepalive_linked (k : BitVec 4) : gateKeepalive true k = 10 := rfl
@[simp] theorem gateProceed_linked (k : BitVec 4) : gateProceed true k = true := rfl
theorem gateKeepalive_unlinked_zero : gateKeepalive false 0 = 0 := rfl
theorem gateProceed_unlinked_zero : gateProceed false 0 = false := rfl

theorem gateKeepalive_unlinked_of_ne_zero {k : BitVec 4} (hk : k ≠ 0) : gateKeepalive false k = k - 1 := if_pos hk

/-- Without the link KEEPALIVE counts down and stops at 0, as subtraction of naturals does (R122 item 5). -/
theorem gateKeepalive_unlinked_toNat (k : BitVec 4) : (gateKeepalive false k).toNat = k.toNat - 1 := by
  by_cases hk : k = 0
  · rw [hk, gateKeepalive_unlinked_zero]
    rfl
  · rw [gateKeepalive_unlinked_of_ne_zero hk]
    bv_omega

/-- R122 item 2: after GATE, `proceed` says whether KEEPALIVE stands above 0, with the link and without it. -/
theorem gateProceed_iff (link : Bool) (k : BitVec 4) : gateProceed link k = true ↔ gateKeepalive link k ≠ 0 := by
  cases link with
  | true => simp
  | false =>
    by_cases hk : k = 0
    · rw [hk, gateProceed_unlinked_zero, gateKeepalive_unlinked_zero]
      simp
    · have hproceed : gateProceed false k = decide (k - 1 ≠ 0) := if_pos hk
      rw [hproceed, gateKeepalive_unlinked_of_ne_zero hk, decide_eq_true_iff]

theorem gateProceed_iff_toNat (link : Bool) (k : BitVec 4) :
    gateProceed link k = true ↔ (gateKeepalive link k).toNat ≠ 0 :=
  (gateProceed_iff link k).trans (not_congr BitVec.toNat_inj.symm)

/-! GATE and the invocation it ends -/

/-- GATE's whole effect: it writes its two outputs and answers always. -/
theorem exec_gate (s : State) :
    exec .gate s = .next { s with
      keepalive := gateKeepalive s.linkPresent s.keepalive
      proceed := gateProceed s.linkPresent s.keepalive } := rfl

/-- SHOT from IDLE where the gate says no (R101, R103): the gate's part is all that runs. -/
theorem exec_shot_of_gateProceed_eq_false {s : State} (f : Bool) (hidle : s.phase = .idle)
    (hno : gateProceed s.linkPresent s.keepalive = false) :
    exec (.shot f) s = .next (exitInvocation .suppressed (gateOp (acceptStart f s))) := by
  have hstart : exec (.shot f) s = gatePart (acceptStart f s) := if_pos hidle
  have hstop : (gateOp (acceptStart f s)).proceed = false := hno
  rw [hstart, gatePart, hstop]
  rfl

/-- Settles O11: the outputs by the three cases of R120, then SHOT, whose gate sees the link and the KEEPALIVE that GATE alone
sees. -/
theorem gateFollowsItsPolicy : Obligations.GateFollowsItsPolicy := by
  refine ⟨rfl, fun s => ⟨_, _, exec_gate s, fun hlink => ?linked, fun hlink _ => ?counting, fun hlink hzero => ?spent⟩,
    fun f s t hidle hgate hno => ?suppressed⟩
  case linked =>
    rw [hlink]
    exact ⟨gateKeepalive_linked _, gateProceed_linked _⟩
  case counting =>
    rw [hlink]
    exact ⟨gateKeepalive_unlinked_toNat _, gateProceed_iff_toNat _ _⟩
  case spent =>
    have hk : s.keepalive = 0 := BitVec.eq_of_toNat_eq hzero
    rw [hlink, hk]
    exact ⟨gateKeepalive_unlinked_zero, gateProceed_unlinked_zero⟩
  case suppressed =>
    rw [exec_gate] at hgate
    cases hgate
    exact ⟨_, exec_shot_of_gateProceed_eq_false f hidle hno, rfl, rfl⟩

end Sys2Proof.Machine
end

section
/-! The forced-refresh cursor (spec/43_delta_selector.md): what the packer and the pass over the blocks may change at all, and
how many times CURSOR was stepped where SHOT ended. -/

namespace Sys2Proof.Machine

/-! The packer's frame: CUR, its three registers and the position -/

/-- `t` is `s` but for what the packer writes (R16, R130). -/
def PackerFrame (s t : State) : Prop :=
  ∃ cur acc bitcnt oidx pos, t = { s with cur := cur, acc := acc, bitcnt := bitcnt, oidx := oidx, pos := pos }

theorem PackerFrame.trans {s t u : State} (hst : PackerFrame s t) (htu : PackerFrame t u) : PackerFrame s u := by
  obtain ⟨_, _, _, _, _, rfl⟩ := hst
  obtain ⟨_, _, _, _, _, rfl⟩ := htu
  exact ⟨_, _, _, _, _, rfl⟩

theorem PackerFrame.cursor {s t : State} (h : PackerFrame s t) : t.cursor = s.cursor := by
  obtain ⟨_, _, _, _, _, rfl⟩ := h
  rfl

theorem packerFrame_visitOp {s t : State} (h : visitOp s = .next t) : PackerFrame s t := by
  obtain ⟨u, hu, rfl⟩ := visitOp_eq_next.1 h
  obtain ⟨-, rfl⟩ | ⟨-, -, rfl⟩ := packBitOp_eq_next.1 hu <;> exact ⟨_, _, _, _, _, rfl⟩

theorem packerFrame_packRowOp {s t : State} (h : packRowOp s = .next t) : PackerFrame s t :=
  times_keeps (P := PackerFrame s) (fun _ _ hs hv => hs.trans (packerFrame_visitOp hv)) ⟨_, _, _, _, _, rfl⟩ h

theorem packerFrame_pflushOp {s t : State} (h : pflushOp s = .next t) : PackerFrame s t := by
  obtain ⟨-, rfl⟩ | ⟨-, -, rfl⟩ := pflushOp_eq_next.1 h <;> exact ⟨_, _, _, _, _, rfl⟩

theorem packerFrame_packOp {s t : State} (h : packOp s = .next t) : PackerFrame s t := by
  obtain ⟨u, hrows, hflush⟩ := packOp_eq_next.1 h
  have hu : PackerFrame s u :=
    times_keeps (fun _ _ hs hr => hs.trans (packerFrame_packRowOp hr)) ⟨_, _, _, _, _, rfl⟩ hrows
  exact hu.trans (packerFrame_pflushOp hflush)

/-! The frame of the blocks' pass: DELTA, DLEN, PREV, BLK and the selector's signals -/

/-- `t` is `s` but for what the pass over the blocks writes before its ADVANCE (R150). -/
def PassFrame (s t : State) : Prop :=
  ∃ prev delta dlen blk changed forced included, t = { s with
    prev := prev, delta := delta, dlen := dlen, blk := blk, changed := changed, forced := forced, included := included }

theorem PassFrame.trans {s t u : State} (hst : PassFrame s t) (htu : PassFrame t u) : PassFrame s u := by
  obtain ⟨_, _, _, _, _, _, _, rfl⟩ := hst
  obtain ⟨_, _, _, _, _, _, _, rfl⟩ := htu
  exact ⟨_, _, _, _, _, _, _, rfl⟩

theorem PassFrame.cursor {s t : State} (h : PassFrame s t) : t.cursor = s.cursor := by
  obtain ⟨_, _, _, _, _, _, _, rfl⟩ := h
  rfl

theorem passFrame_blockOp {s t : State} (h : blockOp s = .next t) : PassFrame s t := by
  obtain ⟨u, v, hcmp, hincl, rfl⟩ := blockOp_eq_next.1 h
  obtain ⟨-, rfl⟩ := cmp8Op_eq_next.1 hcmp
  obtain ⟨-, hemit⟩ | ⟨-, rfl⟩ := hincl
  · obtain ⟨-, -, rfl⟩ := emitGroupOp_eq_next.1 hemit
    exact ⟨_, _, _, _, _, _, _, rfl⟩
  · exact ⟨_, _, _, _, _, _, _, rfl⟩

/-- The only step of CURSOR in DPASS is the ADVANCE at its end (R150, R160). -/
theorem dpassOp_cursor {s t : State} (h : dpassOp s = .next t) : t.cursor = s.cursor + 1 := by
  obtain ⟨u, hblocks, rfl⟩ := dpassOp_eq_next.1 h
  have hu : PassFrame s u :=
    times_keeps (fun _ _ hs hb => hs.trans (passFrame_blockOp hb)) ⟨_, _, _, _, _, _, _, rfl⟩ hblocks
  rw [advanceOp_cursor, hu.cursor]

/-! CURSOR at the end of an invocation (R101, R160) -/

/-- How an invocation that began with CURSOR at `c` may have ended: past the DELTA phase with one step of CURSOR, or before
that phase with none. -/
inductive CursorStepped (c : BitVec 7) (t : State) : Prop
  | encoded (hout : t.outcome = .sent ∨ t.outcome = .skippedEmpty) (hcursor : t.cursor = c + 1)
  | endedBefore (hout : t.outcome = .suppressed ∨ t.outcome = .abortedShape) (hcursor : t.cursor = c)

/-- The framer's part ends the invocation and leaves CURSOR alone. -/
theorem transmitPart_ends {s t : State} (h : transmitPart s = .next t) :
    (t.outcome = .sent ∨ t.outcome = .skippedEmpty) ∧ t.cursor = s.cursor := by
  obtain ⟨-, rfl⟩ | ⟨-, -, rfl⟩ := transmitPart_eq_next.1 h
  · exact ⟨.inr rfl, rfl⟩
  · exact ⟨.inl rfl, by rw [exitInvocation_cursor, sendFrame_cursor, emptyChkOp_cursor]⟩

theorem encodePart_stepsCursor {s t : State} (h : encodePart s = .next t) : CursorStepped s.cursor t := by
  obtain ⟨u, hpass, hsend⟩ := andThen_eq_next.1 h
  obtain ⟨hout, hcursor⟩ := transmitPart_ends hsend
  exact .encoded hout (hcursor.trans (dpassOp_cursor hpass))

theorem assemblePart_stepsCursor {s t : State} (h : assemblePart s = .next t) : CursorStepped s.cursor t := by
  obtain ⟨u, hpack, hrest⟩ := andThen_eq_next.1 h
  have hu : (guardOp u).cursor = s.cursor := (packerFrame_packOp hpack).cursor
  split at hrest
  · exact hu ▸ encodePart_stepsCursor hrest
  · cases hrest
    exact .endedBefore (.inr rfl) hu

/-- SHOT from IDLE, by how it ended. -/
theorem exec_shot_stepsCursor {f : Bool} {s t : State} (hidle : s.phase = .idle) (h : exec (.shot f) s = .next t) :
    CursorStepped s.cursor t := by
  cases hgate : gateProceed s.linkPresent s.keepalive with
  | false =>
    rw [exec_shot_of_gateProceed_eq_false f hidle hgate] at h
    cases h
    exact .endedBefore (.inl rfl) rfl
  | true =>
    have hproceed : (gateOp (acceptStart f s)).proceed = true := hgate
    have hstart : exec (.shot f) s = assemblePart (gateOp (acceptStart f s)) :=
      (if_pos hidle).trans (if_pos hproceed)
    exact assemblePart_stepsCursor (s := gateOp (acceptStart f s)) (hstart.symm.trans h)

/-! ADVANCE (R160) -/

/-- ADVANCE's whole effect. -/
theorem exec_advance (s : State) : exec .advance s = .next { s with cursor := s.cursor + 1 } := rfl

/-- The 7-bit increment is addition modulo 128. -/
theorem cursor_succ_toNat (c : BitVec 7) : (c + 1).toNat = (c.toNat + 1) % 128 := BitVec.toNat_add c 1

/-- Settles O27: ADVANCE's equation, and SHOT by the part of R101 it ended in. -/
theorem advanceStepsTheCursorOncePerEncodedInvocation :
    Obligations.AdvanceStepsTheCursorOncePerEncodedInvocation := by
  refine ⟨rfl, fun s => ⟨_, exec_advance s, cursor_succ_toNat _⟩, fun f s t hidle hshot => ?_⟩
  cases exec_shot_stepsCursor hidle hshot with
  | encoded hout hcursor =>
    refine ⟨fun _ => by rw [hcursor, cursor_succ_toNat], fun hbefore => ?_⟩
    rcases hout with hout | hout <;> simp [hout] at hbefore
  | endedBefore hout hcursor =>
    refine ⟨fun hencoded => ?_, fun _ => hcursor⟩
    rcases hout with hout | hout <;> simp [hout] at hencoded

end Sys2Proof.Machine
end

section
/-! The encodings (spec/30_encoding.md): what each of the five decoders accepts, and with them the one fact that the decoder
accepts the encodings of the well-formed instructions and nothing else. -/

namespace Sys2Proof

/-! What the checks of WellFormed.lean ask (R75 to R77, R89) -/

theorem Group.wf_iff (g : Group) : g.wf = true ↔ g.index.toNat < 128 ∧ g.data.length = 8 := by
  simp [Group.wf]

/-- Neighbours in ascending order are a list in ascending order. -/
theorem ascending_iff_pairwise (gs : List Group) :
    ascending gs = true ↔ gs.Pairwise fun g h => g.index.toNat < h.index.toNat := by
  induction gs with
  | nil => simp [ascending]
  | cons g gs ih =>
    cases gs with
    | nil => simp [ascending]
    | cons h rest =>
      rw [ascending, Bool.and_eq_true, decide_eq_true_iff, ih, List.pairwise_cons (a := g)]
      constructor
      · rintro ⟨hgh, hrest⟩
        refine ⟨fun x hx => ?_, hrest⟩
        rcases List.mem_cons.1 hx with rfl | hx
        · exact hgh
        · exact hgh.trans (List.rel_of_pairwise_cons hrest hx)
      · rintro ⟨hg, hrest⟩
        exact ⟨hg h (List.mem_cons_self ..), hrest⟩

theorem wfPayload_iff (gs : List Group) :
    wfPayload gs = true ↔
      1 ≤ gs.length ∧ gs.length ≤ 128 ∧ (∀ g ∈ gs, g.wf = true) ∧ ascending gs = true := by
  simp [wfPayload, and_assoc]

/-! Cutting a payload into groups and laying groups back to back (R77, R88) -/

/-- The payload of well-formed groups, whatever follows it, is cut into those groups again. -/
theorem cutGroups_payloadBytes {gs : List Group} (hwf : ∀ g ∈ gs, g.wf = true) (tail : List Byte) :
    cutGroups gs.length (payloadBytes gs ++ tail) = gs := by
  induction gs with
  | nil => rfl
  | cons g gs ih =>
    have hdata : g.data.length = 8 := ((Group.wf_iff g).1 (hwf g (List.mem_cons_self ..))).2
    have hrest := ih fun h hh => hwf h (List.mem_cons_of_mem _ hh)
    have hcons : payloadBytes (g :: gs) ++ tail = g.index :: (g.data ++ (payloadBytes gs ++ tail)) := by
      simp [payloadBytes, Group.bytes]
    rw [hcons, List.length_cons, cutGroups, List.take_left' hdata, List.drop_left' hdata, hrest]

/-- The groups cut from a payload, laid back to back, are its bytes. -/
theorem payloadBytes_cutGroups (n : Nat) (bs : List Byte) (hlen : 9 * n ≤ bs.length) :
    payloadBytes (cutGroups n bs) = bs.take (9 * n) ∧ (cutGroups n bs).length = n := by
  induction n generalizing bs with
  | zero => simp [cutGroups, payloadBytes]
  | succ n ih =>
    cases bs with
    | nil => simp at hlen
    | cons i rest =>
      have hrest := ih (rest.drop 8) (by simp only [List.length_cons, List.length_drop] at *; omega)
      have htake : (i :: rest).take (9 * (n + 1)) = i :: (rest.take 8 ++ (rest.drop 8).take (9 * n)) := by
        rw [← List.take_add, ← List.take_succ_cons]
        congr 1
        omega
      constructor
      · rw [htake, ← hrest.1]
        simp [cutGroups, payloadBytes, Group.bytes]
      · rw [cutGroups, List.length_cons, hrest.2]

/-! What each decoder accepts -/

theorem decodeCmd_eq_ok {bs : List Byte} {i : Instr} :
    decodeCmd bs = .ok i ↔ ∃ f : Bool, i = .shot f ∧ bs = [if f then 1 else 0] := by
  constructor
  · intro h
    unfold decodeCmd at h
    split at h
    · rename_i w
      split at h
      · rename_i hw
        cases h
        refine ⟨_, rfl, ?_⟩
        have hcases : w = 0 ∨ w = 1 := by
          have : w.toNat = 0 ∨ w.toNat = 1 := by omega
          exact this.imp BitVec.eq_of_toNat_eq BitVec.eq_of_toNat_eq
        rcases hcases with rfl | rfl <;> rfl
      · cases h
    · cases h
  · rintro ⟨f, rfl, rfl⟩
    cases f <;> rfl

theorem decodePin_eq_ok {bs : List Byte} {i : Instr} : decodePin bs = .ok i ↔ i = .reset ∧ bs = [] := by
  cases bs with
  | nil => simp [decodePin, eq_comm]
  | cons b bs => simp [decodePin]

/-- A tag's instruction has that tag as its encoding. -/
theorem encode_of_decodeTag {w : Byte} {i : Instr} (h : decodeTag w.toNat = .ok i) : encode i = (.uop, [w]) := by
  have hw : w = BitVec.ofNat 8 w.toNat := by simp
  rw [hw]
  generalize w.toNat = tag at h
  unfold decodeTag at h
  split at h <;> cases h <;> rfl

theorem decodeUop_eq_ok {bs : List Byte} {i : Instr} : decodeUop bs = .ok i ↔ encode i = (.uop, bs) := by
  constructor
  · intro h
    unfold decodeUop at h
    split at h
    · exact encode_of_decodeTag h
    · cases h
  · intro h
    cases i <;> cases h <;> rfl

theorem decodeGroup_eq_ok {bs : List Byte} {i : Instr} :
    decodeGroup bs = .ok i ↔ ∃ g : Group, i = .group g ∧ g.wf = true ∧ bs = g.bytes := by
  constructor
  · intro h
    unfold decodeGroup at h
    split at h
    · cases h
    · rename_i index data
      split_ifs at h with hlen hindex
      cases h
      refine ⟨⟨index, data⟩, rfl, (Group.wf_iff _).2 ⟨?_, ?_⟩, rfl⟩
      · simpa using hindex
      · simpa using hlen
  · rintro ⟨g, rfl, hwf, rfl⟩
    obtain ⟨hindex, hdata⟩ := (Group.wf_iff g).1 hwf
    rw [Group.bytes, decodeGroup, if_neg (by simpa using hdata), if_neg (by simpa using hindex)]

theorem decodePayload_eq_ok {gs : List Group} {i : Instr} :
    decodePayload gs = .ok i ↔ (∀ g ∈ gs, g.wf = true) ∧ ascending gs = true ∧ i = .wire gs := by
  rw [← List.all_eq_true]
  constructor
  · intro h
    unfold decodePayload at h
    split_ifs at h with hwf hasc
    cases h
    exact ⟨hwf, hasc, rfl⟩
  · rintro ⟨hwf, hasc, rfl⟩
    rw [decodePayload, if_pos hwf, if_pos hasc]

theorem decodeBody_eq_ok {n : Nat} {rest : List Byte} {i : Instr} :
    decodeBody n rest = .ok i ↔
      n ≠ 0 ∧ n % 9 = 0 ∧ n ≤ 1152 ∧ rest.length = n + 1 ∧ rest.drop n = [Config.term] ∧
        decodePayload (cutGroups (n / 9) rest) = .ok i := by
  unfold decodeBody
  split_ifs <;> simp_all

/-- What follows a header: a well-formed payload of the announced length, and the terminator. -/
theorem decodeBody_eq_ok_iff_payload {n : Nat} {rest : List Byte} {i : Instr} :
    decodeBody n rest = .ok i ↔ ∃ gs : List Group, i = .wire gs ∧ wfPayload gs = true ∧ n = 9 * gs.length ∧
      rest = payloadBytes gs ++ [Config.term] := by
  rw [decodeBody_eq_ok]
  constructor
  · rintro ⟨hpos, hmod, hmax, hlen, hterm, hpay⟩
    obtain ⟨hwf, hasc, rfl⟩ := decodePayload_eq_ok.1 hpay
    have hn : 9 * (n / 9) = n := by omega
    obtain ⟨hbytes, hcount⟩ := payloadBytes_cutGroups (n / 9) rest (by omega)
    refine ⟨_, rfl, (wfPayload_iff _).2 ⟨by omega, by omega, hwf, hasc⟩, by omega, ?_⟩
    rw [hbytes, hn, ← hterm, List.take_append_drop]
  · rintro ⟨gs, rfl, hgs, rfl, rfl⟩
    obtain ⟨hone, hmax, hwf, hasc⟩ := (wfPayload_iff gs).1 hgs
    have hlen := payloadBytes_length hwf
    have hcount : 9 * gs.length / 9 = gs.length := by omega
    refine ⟨by omega, by omega, by omega, by simp [hlen], ?_, ?_⟩
    · rw [← hlen, List.drop_left]
    · rw [hcount, cutGroups_payloadBytes hwf]
      exact decodePayload_eq_ok.2 ⟨hwf, hasc, rfl⟩

/-- The length field is the high byte and the low byte of the number it stands for (R83). -/
theorem lengthField_eq_iff {n : Nat} (hn : n < 65536) (hi lo : Byte) :
    lengthField n = [hi, lo] ↔ 256 * hi.toNat + lo.toNat = n := by
  simp only [lengthField, List.cons.injEq, and_true, ← BitVec.toNat_inj, BitVec.toNat_ofNat]
  have := hi.isLt
  have := lo.isLt
  omega

/-- The wire decoder accepts exactly the frames that carry a well-formed payload (R86, R89). -/
theorem decodeWire_eq_ok {bs : List Byte} {i : Instr} :
    decodeWire bs = .ok i ↔ ∃ gs : List Group, i = .wire gs ∧ wfPayload gs = true ∧ bs = wireBytes (payloadBytes gs) := by
  constructor
  · intro h
    unfold decodeWire at h
    split at h
    · rename_i a b t hi lo rest
      split_ifs at h with hsync htype
      obtain ⟨rfl, rfl⟩ : a = Config.sync0 ∧ b = Config.sync1 := by simpa using hsync
      obtain rfl : t = Config.msgType := by simpa using htype
      obtain ⟨gs, rfl, hgs, hn, rfl⟩ := decodeBody_eq_ok_iff_payload.1 h
      obtain ⟨-, hmax, hwf, -⟩ := (wfPayload_iff gs).1 hgs
      have hfield := (lengthField_eq_iff (n := 9 * gs.length) (by omega) hi lo).2 hn
      refine ⟨gs, rfl, hgs, ?_⟩
      rw [wireBytes, payloadBytes_length hwf, hfield]
      rfl
    · cases h
  · rintro ⟨gs, rfl, hgs, rfl⟩
    obtain ⟨-, hmax, hwf, -⟩ := (wfPayload_iff gs).1 hgs
    have hn := (lengthField_eq_iff (n := 9 * gs.length) (by omega) _ _).1 rfl
    have hbytes : wireBytes (payloadBytes gs) =
        Config.sync0 :: Config.sync1 :: Config.msgType :: BitVec.ofNat 8 (9 * gs.length / 256) ::
          BitVec.ofNat 8 (9 * gs.length % 256) :: (payloadBytes gs ++ [Config.term]) := by
      rw [wireBytes, payloadBytes_length hwf]
      rfl
    rw [hbytes, decodeWire, if_neg (by simp), if_neg (by simp), hn]
    exact decodeBody_eq_ok_iff_payload.2 ⟨gs, rfl, hgs, rfl, rfl⟩

/-! The decoder and the encoder -/

/-- The decoder accepts the encodings of the well-formed instructions and nothing else, each as what it encodes. -/
theorem decode_eq_ok_iff {f : Format} {bs : List Byte} {i : Instr} :
    decode f bs = .ok i ↔ i.wf = true ∧ encode i = (f, bs) := by
  cases f with
  | cmd =>
    refine decodeCmd_eq_ok.trans ⟨?_, fun ⟨_, henc⟩ => ?_⟩
    · rintro ⟨f, rfl, rfl⟩
      exact ⟨rfl, rfl⟩
    · cases i <;> cases henc
      exact ⟨_, rfl, rfl⟩
  | pin =>
    refine decodePin_eq_ok.trans ⟨?_, fun ⟨_, henc⟩ => ?_⟩
    · rintro ⟨rfl, rfl⟩
      exact ⟨rfl, rfl⟩
    · cases i <;> cases henc
      exact ⟨rfl, rfl⟩
  | uop =>
    refine decodeUop_eq_ok.trans ⟨fun henc => ⟨?_, henc⟩, And.right⟩
    cases i <;> cases henc <;> rfl
  | group =>
    refine decodeGroup_eq_ok.trans ⟨?_, fun ⟨hwf, henc⟩ => ?_⟩
    · rintro ⟨g, rfl, hwf, rfl⟩
      exact ⟨hwf, rfl⟩
    · cases i <;> cases henc
      exact ⟨_, rfl, hwf, rfl⟩
  | wire =>
    refine decodeWire_eq_ok.trans ⟨?_, fun ⟨hwf, henc⟩ => ?_⟩
    · rintro ⟨gs, rfl, hwf, rfl⟩
      exact ⟨hwf, rfl⟩
    · cases i <;> cases henc
      exact ⟨_, rfl, hwf, rfl⟩

/-- Settles O1: the encoding of a well-formed instruction is accepted as that instruction. -/
theorem decodingAnEncodingGivesTheInstruction : Obligations.DecodingAnEncodingGivesTheInstruction :=
  fun _ hwf => decode_eq_ok_iff.2 ⟨hwf, rfl⟩

/-- Settles O2: the same fact, read from the accepted word. -/
theorem everyAcceptedWordIsItsInstructionsEncoding : Obligations.EveryAcceptedWordIsItsInstructionsEncoding :=
  fun _ _ _ hok => decode_eq_ok_iff.1 hok

/-- R89's own spelling of a frame that carries `gs`. -/
theorem wireBytes_payloadBytes {gs : List Group} (hwf : ∀ g ∈ gs, g.wf = true) :
    wireBytes (payloadBytes gs) =
      [0xAA, 0x55, 0x02, BitVec.ofNat 8 (9 * gs.length / 256), BitVec.ofNat 8 (9 * gs.length % 256)]
        ++ gs.flatMap (fun g => g.index :: g.data) ++ [0x0A] := by
  rw [wireBytes, payloadBytes_length hwf]
  rfl

/-- Settles O3: what the wire decoder accepts, with the checks and the frame written as R89 writes them. -/
theorem acceptedFramesAreThoseTheBlockCanEmit : Obligations.AcceptedFramesAreThoseTheBlockCanEmit := by
  intro bytes
  constructor
  · rintro ⟨i, hok⟩
    obtain ⟨gs, -, hgs, rfl⟩ := decodeWire_eq_ok.1 hok
    obtain ⟨hone, hmax, hwf, hasc⟩ := (wfPayload_iff gs).1 hgs
    exact ⟨gs, hone, hmax, fun g hg => (Group.wf_iff g).1 (hwf g hg), (ascending_iff_pairwise gs).1 hasc,
      wireBytes_payloadBytes hwf⟩
  · rintro ⟨gs, hone, hmax, hgroups, hasc, rfl⟩
    have hwf : ∀ g ∈ gs, g.wf = true := fun g hg => (Group.wf_iff g).2 (hgroups g hg)
    have hgs : wfPayload gs = true := (wfPayload_iff gs).2 ⟨hone, hmax, hwf, (ascending_iff_pairwise gs).2 hasc⟩
    exact ⟨.wire gs, decodeWire_eq_ok.2 ⟨gs, rfl, hgs, (wireBytes_payloadBytes hwf).symm⟩⟩

/-- Settles O4: each of the five formats on words of the spec, evaluated. -/
theorem sampleWordsDecodeAsTheSpecEncodesThem : Obligations.SampleWordsDecodeAsTheSpecEncodesThem :=
  ⟨rfl, rfl, rfl, rfl, rfl, rfl, rfl, rfl⟩

end Sys2Proof
end

section
/-! The step, RESET and the environment's writes: what runs at a step, and what a request or a change of an input does. -/

namespace Sys2Proof.Machine

/-! What runs at a step (log 6, log 16, log 26) -/

/-- The operation on the bench is taken off it and runs. -/
theorem step_of_bench {s : State} {f : Format} {bytes : List Byte} (hb : s.bench = some (f, bytes)) :
    step s = benchStep f bytes { s with bench := none } := by
  unfold step
  rw [hb]

/-- With an empty bench the next stimulus is taken off its list and acts. -/
theorem step_of_stimulus {s : State} {st : Stimulus} {rest : List Stimulus} (hb : s.bench = none)
    (hst : s.stimuli = st :: rest) : step s = stimulate st { s with stimuli := rest } :=
  (step_of_empty_bench hb).trans (blockStep_cons hst)

/-- With an empty bench and no stimulus the sequencer makes its move. -/
theorem step_of_no_stimulus {s : State} (hb : s.bench = none) (hst : s.stimuli = []) : step s = tick s :=
  (step_of_empty_bench hb).trans (blockStep_nil hst)

theorem exec_reset (s : State) : exec .reset s = .next (resetOp s) := rfl

/-- Bytes that encode no operation are refused under the decoder's reason. -/
theorem benchStep_of_decode_error {f : Format} {bytes : List Byte} {e : DecodeError} {s : State} (hr : s.rst = false)
    (hd : decode f bytes = .error e) : benchStep f bytes s = .refused (.undecodable e) := by
  unfold benchStep
  rw [unlessReset_low hr, hd]

/-- Settles O5: the bench, the command and the reset request, each by what runs at such a step. -/
theorem stepRunsThePresentedOperation : Obligations.StepRunsThePresentedOperation := by
  refine ⟨fun s f bytes i hb hr hd => ?bench, fun s f rest hb hr hst => ?command, fun s rest hb hst => ?reset⟩
  case bench =>
    rw [step_of_bench hb]
    exact benchStep_of_decode hr hd
  case command =>
    rw [step_of_stimulus hb hst]
    exact unlessReset_low hr
  case reset => exact step_of_stimulus hb hst

/-- A row's word that stands for an instruction decodes to it. -/
theorem decodeTableWord_eq_some {nbits w : Nat} {i : Instr} :
    decodeTableWord nbits w = some i ↔ decode (tableLayout nbits w).1 (tableLayout nbits w).2 = .ok i := by
  unfold decodeTableWord
  cases decode (tableLayout nbits w).1 (tableLayout nbits w).2 <;> simp

/-- Settles O6: `withFetchWord` lays the row's encoding on the bench and holds `rst` low. -/
theorem stepRunsATableWord : Obligations.StepRunsATableWord := by
  intro s nbits w i hword
  rw [step_of_bench (s := s.withFetchWord nbits w) rfl]
  exact benchStep_of_decode rfl (decodeTableWord_eq_some.1 hword)

/-- Settles O7: the bench's operation where the decoder rejects it. -/
theorem stepRefusesWhatDoesNotDecode : Obligations.StepRefusesWhatDoesNotDecode := by
  intro s f bytes e hb hr hd
  rw [step_of_bench hb]
  exact benchStep_of_decode_error hr hd

/-- Settles O8: each kind of step asks for `rst` before anything else. -/
theorem resetPinWinsInEveryPhase : Obligations.ResetPinWinsInEveryPhase := by
  intro s
  refine ⟨fun st f l rd rest hb hst => ?pins, fun hr hb hst => ?move, fun f rest hr hb hst => ?command,
    fun f bytes hr hb => ?bench⟩
  case pins =>
    rw [step_of_stimulus hb hst, stimulate, tick]
    exact unlessReset_high rfl
  case move =>
    rw [step_of_no_stimulus hb hst]
    exact unlessReset_high hr
  case command =>
    rw [step_of_stimulus hb hst]
    exact unlessReset_high hr
  case bench =>
    rw [step_of_bench hb]
    exact unlessReset_high hr

/-! RESET (R104, R220, R222) -/

/-- In IDLE the block is not busy. -/
theorem busy_eq_false_iff (s : State) : s.busy = false ↔ s.phase = .idle := by
  simp [State.busy]

theorem busy_eq_true_iff (s : State) : s.busy = true ↔ s.phase ≠ .idle := by
  simp [State.busy]

/-- A byte is presented in FRAME only. -/
theorem presented_of_phase_ne_frame {s : State} (h : s.phase ≠ .frame) : s.presented = none :=
  if_neg fun hframe => h hframe.1

theorem txValid_of_phase_ne_frame {s : State} (h : s.phase ≠ .frame) : s.txValid = false := by
  rw [State.txValid, presented_of_phase_ne_frame h]
  rfl

/-- Settles O9: RESET answers always; each cell by its field lemma. -/
theorem resetLeavesThePersistentCellsAtTheirResetValues :
    Obligations.ResetLeavesThePersistentCellsAtTheirResetValues := by
  intro s
  have hidle : (resetOp s).phase = .idle := resetOp_phase s
  have hquiet : (resetOp s).phase ≠ .frame := by
    rw [hidle]
    decide
  refine ⟨resetOp s, exec_reset s, fun a => ?_, resetOp_cursor s, resetOp_keepalive s, hidle,
    (busy_eq_false_iff _).2 hidle, txValid_of_phase_ne_frame hquiet, resetOp_done s, resetOp_tx s, resetOp_stream s,
    resetOp_txArg s, resetOp_stimuli s, resetOp_bench s, resetOp_status s, resetOp_fb s, resetOp_rst s, resetOp_start s,
    resetOp_forcePin s, resetOp_linkPresent s, resetOp_txReady s⟩
  rw [resetOp_prev, Memory.read_nil]

/-- Settles O10: the cells to which R34 gives a value, read off `State.reset`. -/
theorem theResetStateHoldsTheSpecsResetValues : Obligations.TheResetStateHoldsTheSpecsResetValues :=
  ⟨fun _ => rfl, rfl, rfl, rfl, rfl, rfl, rfl, rfl⟩

/-- Settles O49: each clause of the two invariants is a closed fact about `State.reset`. -/
theorem theResetStateMeetsTheInvariants : Obligations.TheResetStateMeetsTheInvariants :=
  ⟨by constructor <;> decide, by constructor <;> decide⟩

/-! The inputs (R30, log 5, log 6, log 26) -/

/-- Settles O59: the pins, the stimuli and the bench are parts of the environment, which every operation and every move keeps. -/
theorem theBlockLeavesItsInputPinsAlone : Obligations.TheBlockLeavesItsInputPinsAlone := by
  intro i s t h
  have henv : t.environment = s.environment := h.elim (exec_keepsEnvironment i ·) (tick_keepsEnvironment ·)
  exact ⟨congrArg Environment.rst henv, congrArg Environment.start henv, congrArg Environment.forcePin henv,
    congrArg Environment.linkPresent henv, congrArg Environment.txReady henv, congrArg Environment.stimuli henv,
    congrArg Environment.bench henv⟩

/-! The sources (R41 to R43, R230) -/

theorem snapshotOpen_iff (s : State) : snapshotOpen s = true ↔ s.phase = .pack ∧ s.pos ≠ 0 := by
  simp [snapshotOpen]

theorem srcByte_zero (s : State) (c : Nat) : srcByte s 0 c = s.status.read c := rfl

theorem srcByte_of_ne_zero (s : State) {R : Nat} (hR : R ≠ 0) (c : Nat) : srcByte s R c = s.fb.read (128 * (R - 1) + c) :=
  if_neg hR

/-- The address of a framebuffer byte tells its row and its column. -/
theorem fbAddress_inj {R R' c c' : Nat} (hR : R ≠ 0) (hR' : R' ≠ 0) (hc : c < 128) (hc' : c' < 128) :
    128 * (R - 1) + c = 128 * (R' - 1) + c' ↔ R = R' ∧ c = c' := by
  omega

/-- One source byte is written in the memory its row lies in, unless the sources are being read. -/
theorem setSrcByte_eq (row : BitVec 3) (col : BitVec 7) (v : Byte) (s : State) :
    setSrcByte row col v s =
      setSources (if row = 0 then s.status.write col.toNat v else s.status)
        (if row = 0 then s.fb else s.fb.write (128 * (row.toNat - 1) + col.toNat) v) s := by
  unfold setSrcByte
  split <;> rfl

/-- The sources after one byte of them is written: that byte, and every other as it was. -/
theorem srcByte_of_written {s : State} (hst : s.status.wf = true) (hfb : s.fb.wf = true) (row : BitVec 3) (col : BitVec 7)
    (v : Byte) (rest : List Stimulus) {R c : Nat} (hc : c < 128) :
    srcByte { s with
      status := if row = 0 then s.status.write col.toNat v else s.status
      fb := if row = 0 then s.fb else s.fb.write (128 * (row.toNat - 1) + col.toNat) v
      stimuli := rest } R c = if R = row.toNat ∧ c = col.toNat then v else srcByte s R c := by
  have hrow : row = 0 ↔ row.toNat = 0 := BitVec.toNat_inj.symm
  have hcol := col.isLt
  by_cases h0 : row = 0
  · simp only [if_pos h0, hrow.1 h0]
    by_cases hR : R = 0
    · subst hR
      simp only [srcByte_zero, Memory.read_write _ _ _ hst, true_and]
    · simp only [srcByte_of_ne_zero _ hR, hR, false_and, if_false]
  · have hne : row.toNat ≠ 0 := fun h => h0 (hrow.2 h)
    simp only [if_neg h0]
    by_cases hR : R = 0
    · subst hR
      simp only [srcByte_zero, hne.symm, false_and, if_false]
    · simp only [srcByte_of_ne_zero _ hR, Memory.read_write _ _ _ hfb, fbAddress_inj hR hne hc hcol]

/-- Settles O54: the write is refused while PACK reads, and at every other moment it reaches the one byte it names. -/
theorem aSourceByteChangesBetweenSnapshotsOnly : Obligations.ASourceByteChangesBetweenSnapshotsOnly := by
  intro s row col v rest hb hwst hwfb hst
  have hstep : step s = setSrcByte row col v { s with stimuli := rest } := step_of_stimulus hb hst
  rw [hstep, setSrcByte_eq]
  constructor
  · intro hopen
    exact if_pos ((snapshotOpen_iff _).2 hopen)
  · intro hclosed
    have hno : snapshotOpen { s with stimuli := rest } = false := by
      rw [← Bool.not_eq_true, snapshotOpen_iff]
      tauto
    exact ⟨_, _, setSources_eq_next.2 ⟨hno, rfl⟩, fun R c _ hc => srcByte_of_written hwst hwfb row col v rest hc⟩

end Sys2Proof.Machine
end

section
/-! The framer (spec/44_wire_framer.md) and the words of SHOT that end at once. -/

namespace Sys2Proof.Machine

theorem exec_emptychk (s : State) : exec .emptychk s = .next { s with empty := emptyFlag s.dlen } := rfl

theorem emptyFlag_iff (dlen : BitVec 11) : emptyFlag dlen = true ↔ dlen.toNat = 0 := by
  rw [emptyFlag, decide_eq_true_iff, ← BitVec.toNat_inj]
  rfl

/-- Settles O28: EMPTYCHK's equation and its signal. -/
theorem emptychkTestsThePayloadLength : Obligations.EmptychkTestsThePayloadLength :=
  fun s => ⟨_, exec_emptychk s, emptyFlag_iff s.dlen⟩

@[simp] theorem deltaPayload_length (s : State) : (deltaPayload s).length = s.dlen.toNat := by
  simp [deltaPayload]

theorem frameOf_length (s : State) : (frameOf s).length = s.dlen.toNat + 6 := by
  rw [frameOf, wireBytes_length, deltaPayload_length]

/-- The frame as R80 spells it. -/
theorem frameOf_eq (s : State) :
    frameOf s = [0xAA, 0x55, 0x02, BitVec.ofNat 8 (s.dlen.toNat / 256), BitVec.ofNat 8 (s.dlen.toNat % 256)]
      ++ (List.range s.dlen.toNat).map (fun i => s.delta.read i) ++ [0x0A] := by
  rw [frameOf, wireBytes, deltaPayload_length]
  rfl

/-- FRAME, where the payload lies inside DELTA. -/
theorem exec_frame_of_le {s : State} (h : s.dlen.toNat ≤ 1152) :
    exec .frame s = .next { s with tx := s.tx ++ frameOf s, stream := s.stream ++ frameOf s, txArg := [Config.term] } :=
  frameOp_eq_next.2 ⟨h, (sendFrame_eq _ s).symm⟩

theorem exec_frame_of_lt {s : State} (h : 1152 < s.dlen.toNat) : exec .frame s = .fault .deltaOverrun :=
  if_neg (Nat.not_le.2 h)

/-- Settles O29: FRAME on either side of DELTA's end. -/
theorem frameSendsHeaderPayloadAndTerminator : Obligations.FrameSendsHeaderPayloadAndTerminator :=
  ⟨rfl, fun s => ⟨fun h => ⟨frameOf s, frameOf_eq s, frameOf_length s, exec_frame_of_le h⟩, exec_frame_of_lt⟩⟩

theorem exec_tx (s : State) :
    exec .tx s = .next { s with tx := s.tx ++ s.txArg, stream := s.stream ++ s.txArg } := rfl

/-- Settles O30: TX's equation. -/
theorem txAppendsItsOperand : Obligations.TxAppendsItsOperand := exec_tx

/-- Settles O31: WIRE on a payload that is well formed and on one that is not. -/
theorem wireTransmitsItsFrame : Obligations.WireTransmitsItsFrame := by
  intro gs s
  constructor
  · intro hgs
    have hexec : exec (.wire gs) s = .next (sendFrame (payloadBytes gs) s) := if_pos hgs
    rw [hexec, sendFrame_eq]
    rfl
  · intro hgs
    exact if_neg (by rw [hgs]; exact Bool.false_ne_true)

/-! SHOT while busy, and SHOT where the gate says no -/

theorem exec_shot_of_busy (f : Bool) {s : State} (hbusy : s.phase ≠ .idle) : exec (.shot f) s = .next s :=
  if_neg hbusy

/-- Settles O34. -/
theorem shotWhileBusyIsIgnored : Obligations.ShotWhileBusyIsIgnored := fun f _ hbusy => exec_shot_of_busy f hbusy

/-- What the gate lets through, as the claims count it (R121, R122). -/
theorem gateProceed_eq_proceeds (link : Bool) (k : BitVec 4) : gateProceed link k = proceeds link k := by
  cases link with
  | true => rfl
  | false =>
    rw [Bool.eq_iff_iff, gateProceed_iff_toNat, gateKeepalive_unlinked_toNat, proceeds, Bool.false_or, decide_eq_true_iff]
    omega

theorem proceeds_eq_false_iff (link : Bool) (k : BitVec 4) : proceeds link k = false ↔ link = false ∧ k.toNat ≤ 1 := by
  cases link <;> simp [proceeds]

/-- Settles O33: only the gate's part runs, and it leaves KEEPALIVE at 0. -/
theorem shotWithoutLinkAndGraceIsSuppressed : Obligations.ShotWithoutLinkAndGraceIsSuppressed := by
  intro f s hidle hlink hk
  have hno : gateProceed s.linkPresent s.keepalive = false := by
    rw [gateProceed_eq_proceeds]
    exact (proceeds_eq_false_iff _ _).2 ⟨hlink, hk⟩
  have hzero : gateKeepalive s.linkPresent s.keepalive = 0 := by
    rw [hlink]
    refine BitVec.eq_of_toNat_eq ?_
    rw [gateKeepalive_unlinked_toNat]
    exact Nat.sub_eq_zero_of_le hk
  rw [exec_shot_of_gateProceed_eq_false f hidle hno, gateOp, acceptStart, exitInvocation, hno, hzero, hidle]

end Sys2Proof.Machine
end

section
/-! The bit-plane packer (spec/42_bitplane_packer.md): one visit of its loops, a run of visits, and the layout of the frame they
write. The position is the number {R, p, c}, so the visits of a row, and of the whole PACK, count it up by one. -/

namespace Sys2Proof.Machine

/-! The position and the bit it names (R74, R132) -/

/-- The bit of the sources at position `n`: plane p of `SRC[R][c]`. -/
def sourceBit (s : State) (n : Nat) : Bool := (srcByte s (n / 1024) (n % 128)).getLsbD (n / 128 % 8)

theorem sourceBit_at (s : State) (R : Nat) {p c : Nat} (hp : p < 8) (hc : c < 128) :
    sourceBit s (1024 * R + 128 * p + c) = (srcByte s R c).getLsbD p := by
  have hR : (1024 * R + 128 * p + c) / 1024 = R := by omega
  have hcol : (1024 * R + 128 * p + c) % 128 = c := by omega
  have hplane : (1024 * R + 128 * p + c) / 128 % 8 = p := by omega
  rw [sourceBit, hR, hcol, hplane]

theorem posRow_toNat (s : State) : (posRow s).toNat = s.pos.toNat / 1024 := by
  have := s.pos.isLt
  rw [posRow, BitVec.extractLsb'_toNat, Nat.shiftRight_eq_div_pow]
  omega

theorem posPlane_toNat (s : State) : (posPlane s).toNat = s.pos.toNat / 128 % 8 := by
  rw [posPlane, BitVec.extractLsb'_toNat, Nat.shiftRight_eq_div_pow]

theorem posCol_toNat (s : State) : (posCol s).toNat = s.pos.toNat % 128 := by
  rw [posCol, BitVec.extractLsb'_toNat, Nat.shiftRight_zero]

theorem rowStart_posRow_toNat (s : State) : (rowStart (posRow s)).toNat = 1024 * (s.pos.toNat / 1024) := by
  rw [rowStart, BitVec.toNat_append, posRow_toNat, BitVec.ofNat_eq_ofNat, BitVec.toNat_zero, Nat.or_zero,
    Nat.shiftLeft_eq, Nat.mul_comm]

/-- The bit PACKBIT extracts, moved to lane `n` of a byte. -/
theorem packedBit_shiftLeft_getLsbD (s : State) (n : Nat) {j : Nat} (hj : j < 8) :
    (packedBit s <<< n).getLsbD j = (decide (j = n) && sourceBit s s.pos.toNat) := by
  rw [BitVec.getLsbD_shiftLeft, packedBit, BitVec.getLsbD_and, BitVec.ofNat_eq_ofNat, BitVec.getLsbD_one,
    BitVec.getLsbD_ushiftRight, posRow_toNat, posCol_toNat, posPlane_toNat, sourceBit]
  by_cases hjn : j = n
  · subst hjn
    simp [hj]
  · by_cases hlt : j < n
    · simp [hlt, hjn]
    · have hpos : ¬ (j - n = 0) := by omega
      simp [hpos, hjn]

/-- ACC with the bit placed (R132). -/
theorem placeBit_acc_getLsbD (s : State) {j : Nat} (hj : j < 8) :
    (placeBit s).acc.getLsbD j =
      (s.acc.getLsbD j || (decide (j = s.bitcnt.toNat) && sourceBit s s.pos.toNat)) := by
  have hacc : (placeBit s).acc = s.acc ||| (packedBit s <<< s.bitcnt.toNat) := rfl
  rw [hacc, BitVec.getLsbD_or, packedBit_shiftLeft_getLsbD s _ hj]

/-! FLUSH, PFLUSH, PACKBIT and one visit, by the case of their guards -/

theorem flushOp_of_lt {s : State} (ho : s.oidx.toNat < 1024) :
    flushOp s = .next { s with cur := s.cur.write s.oidx.toNat s.acc, oidx := s.oidx + 1, acc := 0, bitcnt := 0 } :=
  flushOp_eq_next.2 ⟨ho, rfl⟩

theorem flushOp_overrun {s : State} (ho : 1024 ≤ s.oidx.toNat) : flushOp s = .fault .curOverrun :=
  if_neg (Nat.not_lt.2 ho)

theorem bitcnt_succ_eq_eight_iff (b : BitVec 4) : b + 1 = 8 ↔ b.toNat = 7 := by
  rw [← BitVec.toNat_inj, BitVec.toNat_add]
  have := b.isLt
  simp
  omega

theorem packBitOp_place {s : State} (hb : s.bitcnt.toNat ≠ 7) : packBitOp s = .next (placeBit s) :=
  packBitOp_eq_next.2 (.inl ⟨mt (bitcnt_succ_eq_eight_iff _).1 hb, rfl⟩)

theorem packBitOp_flush {s : State} (hb : s.bitcnt.toNat = 7) (ho : s.oidx.toNat < 1024) :
    packBitOp s = .next { s with
      cur := s.cur.write s.oidx.toNat (placeBit s).acc, oidx := s.oidx + 1, acc := 0, bitcnt := 0 } :=
  packBitOp_eq_next.2 (.inr ⟨(bitcnt_succ_eq_eight_iff _).2 hb, ho, rfl⟩)

theorem packBitOp_overrun {s : State} (hb : s.bitcnt.toNat = 7) (ho : 1024 ≤ s.oidx.toNat) :
    packBitOp s = .fault .curOverrun := by
  have height : (placeBit s).bitcnt = 8 := (bitcnt_succ_eq_eight_iff _).2 hb
  rw [packBitOp, if_pos height]
  exact flushOp_overrun ho

theorem visitOp_place {s : State} (hb : s.bitcnt.toNat ≠ 7) :
    visitOp s = .next { s with acc := (placeBit s).acc, bitcnt := s.bitcnt + 1, pos := s.pos + 1 } :=
  visitOp_eq_next.2 ⟨_, packBitOp_place hb, rfl⟩

theorem visitOp_flush {s : State} (hb : s.bitcnt.toNat = 7) (ho : s.oidx.toNat < 1024) :
    visitOp s = .next { s with
      cur := s.cur.write s.oidx.toNat (placeBit s).acc, oidx := s.oidx + 1, acc := 0, bitcnt := 0, pos := s.pos + 1 } :=
  visitOp_eq_next.2 ⟨_, packBitOp_flush hb ho, rfl⟩

theorem visitOp_overrun {s : State} (hb : s.bitcnt.toNat = 7) (ho : 1024 ≤ s.oidx.toNat) :
    visitOp s = .fault .curOverrun := by
  rw [visitOp, packBitOp_overrun hb ho, andThen_fault]

theorem pflushOp_of_bitcnt_zero {s : State} (hb : s.bitcnt = 0) : pflushOp s = .next s :=
  pflushOp_eq_next.2 (.inl ⟨hb, rfl⟩)

/-- Settles O13: ACC's bits, and PACKBIT by the three cases of its flush. -/
theorem packbitPlacesOneSourceBit : Obligations.PackbitPlacesOneSourceBit := by
  intro s hwf
  refine ⟨(placeBit s).acc, fun j hj => placeBit_acc_getLsbD s hj, packBitOp_place, fun hb ho => ?_, packBitOp_overrun⟩
  exact ⟨_, packBitOp_flush hb ho, fun a => Memory.read_write _ _ a hwf⟩

/-- Settles O14: FLUSH on either side of CUR's end. -/
theorem flushWritesOneByteOfCur : Obligations.FlushWritesOneByteOfCur :=
  fun _ hwf => ⟨fun ho => ⟨_, flushOp_of_lt ho, fun a => Memory.read_write _ _ a hwf⟩, flushOp_overrun⟩

/-- Settles O15: PFLUSH without a partial byte, and with one on either side of CUR's end. -/
theorem pflushWritesAPartialByteOnly : Obligations.PflushWritesAPartialByteOnly := by
  intro s hwf
  have hzero : s.bitcnt.toNat = 0 ↔ s.bitcnt = 0 := BitVec.toNat_inj (y := 0)
  refine ⟨fun hb => pflushOp_of_bitcnt_zero (hzero.1 hb), fun hb ho => ?_, fun hb ho => ?_⟩
  · exact ⟨_, pflushOp_eq_next.2 (.inr ⟨mt hzero.2 hb, ho, rfl⟩), fun a => Memory.read_write _ _ a hwf⟩
  · have hexec : exec .pflush s = pflushOp s := rfl
    rw [hexec, pflushOp, if_pos (mt hzero.2 hb), if_neg (Nat.not_lt.2 ho)]

/-- Settles O16: GUARD's equation and its signal. -/
theorem guardTestsTheProducedLength : Obligations.GuardTestsTheProducedLength :=
  fun _ => ⟨_, rfl, decide_eq_true_iff⟩

/-! A run of visits -/

/-- The packer has written only registers of its own, so the sources read as before. -/
theorem PackerFrame.srcByte {s t : State} (h : PackerFrame s t) (R c : Nat) : srcByte t R c = srcByte s R c := by
  obtain ⟨_, _, _, _, _, rfl⟩ := h
  rfl

theorem PackerFrame.sourceBit {s t : State} (h : PackerFrame s t) (n : Nat) : sourceBit t n = sourceBit s n := by
  rw [Machine.sourceBit, Machine.sourceBit, h.srcByte]

/-- `t` is reached from `s` by `k` visits (R131, R132). OIDX and BITCNT count the bits placed; bytes of CUR outside the ones
written stand. From a byte boundary with ACC clear the bits placed are the source's in the order of the position. -/
structure Visited (s : State) (k : Nat) (t : State) : Prop where
  frame : PackerFrame s t
  pos : t.pos = s.pos + BitVec.ofNat 13 k
  count : 8 * t.oidx.toNat + t.bitcnt.toNat = 8 * s.oidx.toNat + s.bitcnt.toNat + k
  bitcntRange : t.bitcnt.toNat < 8
  curWf : s.cur.wf = true → t.cur.wf = true
  outside : s.cur.wf = true → ∀ a, a < s.oidx.toNat ∨ t.oidx.toNat ≤ a → t.cur.read a = s.cur.read a
  accBits : s.bitcnt.toNat = 0 → s.acc = 0 → ∀ j, j < 8 → t.acc.getLsbD j =
    (decide (j < t.bitcnt.toNat) && sourceBit s ((s.pos.toNat + 8 * (t.oidx.toNat - s.oidx.toNat) + j) % 8192))
  curBits : s.cur.wf = true → s.bitcnt.toNat = 0 → s.acc = 0 → ∀ a j, j < 8 → s.oidx.toNat ≤ a → a < t.oidx.toNat →
    (t.cur.read a).getLsbD j = sourceBit s ((s.pos.toNat + 8 * (a - s.oidx.toNat) + j) % 8192)

theorem Visited.refl {s : State} (hb : s.bitcnt.toNat < 8) : Visited s 0 s where
  frame := ⟨_, _, _, _, _, rfl⟩
  pos := by simp
  count := rfl
  bitcntRange := hb
  curWf := id
  outside := fun _ _ _ => rfl
  accBits := by
    intro hzero hacc j _
    simp [hzero, hacc]
  curBits := fun _ _ _ _ _ _ hle hlt => absurd hlt (Nat.not_lt.2 hle)

section
variable {s t : State} {k : Nat}

/-- The byte after the next bit is placed: the bits of the source from the byte's first position on. -/
theorem Visited.placeBit_acc (h : Visited s k t) (hzero : s.bitcnt.toNat = 0) (hacc : s.acc = 0) {j : Nat} (hj : j < 8) :
    (placeBit t).acc.getLsbD j = (decide (j < t.bitcnt.toNat + 1) &&
      sourceBit s ((s.pos.toNat + 8 * (t.oidx.toNat - s.oidx.toNat) + j) % 8192)) := by
  have hcount := h.count
  have hpos : t.pos.toNat = (s.pos.toNat + k) % 8192 := by
    rw [h.pos, BitVec.toNat_add, BitVec.toNat_ofNat]
    omega
  rw [placeBit_acc_getLsbD t hj, h.accBits hzero hacc j hj, h.frame.sourceBit, hpos]
  rcases Nat.lt_trichotomy j t.bitcnt.toNat with hlt | heq | hgt
  · simp [hlt, hlt.ne, Nat.lt_succ_of_lt hlt]
  · have hk : s.pos.toNat + k = s.pos.toNat + 8 * (t.oidx.toNat - s.oidx.toNat) + j := by omega
    simp [heq, hk]
  · simp [hgt.ne', Nat.not_lt.2 hgt.le, Nat.not_lt.2 hgt]

/-- The next visit where it completes no byte. -/
theorem Visited.place (h : Visited s k t) (hb : t.bitcnt.toNat ≠ 7) :
    Visited s (k + 1) { t with acc := (placeBit t).acc, bitcnt := t.bitcnt + 1, pos := t.pos + 1 } := by
  have hrange := h.bitcntRange
  have hsucc : (t.bitcnt + 1).toNat = t.bitcnt.toNat + 1 := by bv_omega
  refine ⟨h.frame.trans ⟨_, _, _, _, _, rfl⟩, ?pos, ?count, ?range, h.curWf, h.outside, ?acc, h.curBits⟩
  case pos =>
    rw [BitVec.ofNat_add, ← BitVec.add_assoc, ← h.pos]
    rfl
  case count =>
    have := h.count
    simp only [hsucc]
    omega
  case range =>
    simp only [hsucc]
    omega
  case acc =>
    intro hzero hacc j hj
    simp only [hsucc]
    exact h.placeBit_acc hzero hacc hj

/-- The next visit where it completes a byte of CUR. -/
theorem Visited.flush (h : Visited s k t) (hb : t.bitcnt.toNat = 7) (ho : t.oidx.toNat < 1024) :
    Visited s (k + 1) { t with
      cur := t.cur.write t.oidx.toNat (placeBit t).acc, oidx := t.oidx + 1, acc := 0, bitcnt := 0, pos := t.pos + 1 } := by
  have hcount := h.count
  have hsucc : (t.oidx + 1).toNat = t.oidx.toNat + 1 := by bv_omega
  refine ⟨h.frame.trans ⟨_, _, _, _, _, rfl⟩, ?pos, ?count, Nat.zero_lt_succ 7, fun hwf => Memory.write_wf _ _ (h.curWf hwf),
    ?outside, ?acc, ?cur⟩
  case pos =>
    rw [BitVec.ofNat_add, ← BitVec.add_assoc, ← h.pos]
    rfl
  case count =>
    have hzero : (0 : BitVec 4).toNat = 0 := rfl
    simp only [hsucc, hzero]
    omega
  case outside =>
    intro hwf a ha
    simp only [hsucc] at ha
    have hne : a ≠ t.oidx.toNat := by omega
    exact (Memory.read_write_other _ (h.curWf hwf) hne).trans (h.outside hwf a (by omega))
  case acc =>
    intro _ _ j _
    simp
  case cur =>
    intro hwf hzero hacc a j hj hle hlt
    simp only [hsucc] at hlt
    rw [Memory.read_write _ _ _ (h.curWf hwf)]
    by_cases ha : a = t.oidx.toNat
    · rw [if_pos ha, h.placeBit_acc hzero hacc hj, ha, hb, decide_eq_true hj, Bool.true_and]
    · rw [if_neg ha]
      exact h.curBits hwf hzero hacc a j hj hle (by omega)

end

/-- Visits run on as long as the bytes they complete lie in CUR. -/
theorem visits_run {s : State} {n : Nat} (hb : s.bitcnt.toNat < 8)
    (hroom : s.bitcnt.toNat + n < 8 * (1024 - s.oidx.toNat) + 8) :
    ∃ t, times n visitOp s = .next t ∧ Visited s n t := by
  refine times_runs (fun k t hk h => ?_) (Visited.refl hb)
  by_cases h7 : t.bitcnt.toNat = 7
  · have ho : t.oidx.toNat < 1024 := by
      have := h.count
      omega
    exact ⟨_, visitOp_flush h7 ho, h.flush h7 ho⟩
  · exact ⟨_, visitOp_place h7, h.place h7⟩

/-- A run of visits that would complete a byte beyond CUR stops there. -/
theorem visits_overrun {s : State} {n : Nat} (hb : s.bitcnt.toNat < 8)
    (hfull : 8 * (1024 - s.oidx.toNat) + 8 ≤ s.bitcnt.toNat + n) : times n visitOp s = .fault .curOverrun := by
  obtain ⟨m, hm⟩ : ∃ m, m = 8 * (1024 - s.oidx.toNat) + 7 - s.bitcnt.toNat := ⟨_, rfl⟩
  obtain ⟨t, ht, h⟩ := visits_run (n := m) hb (by omega)
  have hcount := h.count
  have hrange := h.bitcntRange
  have hsplit : n = m + (1 + (n - m - 1)) := by omega
  rw [hsplit, times_add, ht, andThen_next, Nat.add_comm 1, times_succ, visitOp_overrun (by omega) (by omega), andThen_fault]

/-! PACKROW (R131) -/

/-- What PACKROW starts its visits from. -/
def rowInit (s : State) : State := { s with pos := rowStart (posRow s) }

theorem packRowOp_eq (s : State) : packRowOp s = times 1024 visitOp (rowInit s) := rfl

/-- Settles O17: the run of 1024 visits from the row's first position. -/
theorem packrowPacksOneRow : Obligations.PackrowPacksOneRow := by
  intro s hwf hb
  have hexec : exec .packrow s = times 1024 visitOp (rowInit s) := packRowOp_eq s
  have hstart : (rowInit s).pos.toNat = 1024 * (s.pos.toNat / 1024) := rowStart_posRow_toNat s
  have hbound := s.pos.isLt
  rw [hexec]
  constructor
  · intro hfits
    have hroom : s.bitcnt.toNat + 1024 < 8 * (1024 - s.oidx.toNat) + 8 := by omega
    obtain ⟨t, ht, h⟩ := visits_run (s := rowInit s) hb hroom
    have hcount : 8 * t.oidx.toNat + t.bitcnt.toNat = 8 * s.oidx.toNat + s.bitcnt.toNat + 1024 := h.count
    have hrange := h.bitcntRange
    have hframe := h.frame
    have htpos : t.pos = BitVec.ofNat 13 (1024 * (s.pos.toNat / 1024 + 1)) := by
      refine BitVec.eq_of_toNat_eq ?_
      rw [h.pos, BitVec.toNat_add, hstart, BitVec.toNat_ofNat, BitVec.toNat_ofNat]
      omega
    have htoidx : t.oidx.toNat = s.oidx.toNat + 128 := by omega
    have htbit : t.bitcnt = s.bitcnt := BitVec.eq_of_toNat_eq (by omega)
    have hoidx' : t.oidx = s.oidx + 128 := BitVec.eq_of_toNat_eq (by rw [htoidx]; bv_omega)
    refine ⟨t.cur, t.acc, ?_, fun hzero hacc => ⟨?_, fun p k j hp hk hj => ?_⟩, fun a ha => ?_⟩
    · rw [ht, ← htpos, ← hoidx']
      obtain ⟨_, _, _, _, _, rfl⟩ := hframe
      simp only at htbit
      rw [htbit]
      rfl
    · refine BitVec.eq_of_getLsbD_eq fun j hj => ?_
      rw [h.accBits hzero hacc j hj, htbit, hzero]
      simp
    · have hbits := h.curBits hwf hzero hacc (s.oidx.toNat + 16 * p + k) j hj
        (Nat.le_add_right_of_le (Nat.le_add_right ..)) (by omega)
      have hn : ((rowInit s).pos.toNat + 8 * (s.oidx.toNat + 16 * p + k - s.oidx.toNat) + j) % 8192 =
          1024 * (s.pos.toNat / 1024) + 128 * p + (8 * k + j) := by
        omega
      exact hbits.trans ((congrArg (sourceBit s) hn).trans (sourceBit_at _ _ hp (by omega)))
    · exact h.outside hwf a (ha.imp_right (by omega))
  · intro hover
    have hfull : 8 * (1024 - s.oidx.toNat) + 8 ≤ s.bitcnt.toNat + 1024 := by omega
    exact visits_overrun (s := rowInit s) hb hfull

/-! PACK (R130) -/

/-- At the start of a row PACKROW's own position is the present one. -/
theorem rowInit_of_aligned {s : State} (h : s.pos.toNat % 1024 = 0) : rowInit s = s := by
  have hpos : rowStart (posRow s) = s.pos := by
    refine BitVec.eq_of_toNat_eq ?_
    rw [rowStart_posRow_toNat]
    omega
  rw [rowInit, hpos]

theorem visitOp_pos {s t : State} (h : visitOp s = .next t) : t.pos = s.pos + 1 := by
  obtain ⟨u, hu, rfl⟩ := visitOp_eq_next.1 h
  obtain ⟨-, rfl⟩ | ⟨-, -, rfl⟩ := packBitOp_eq_next.1 hu <;> rfl

/-- Every visit counts the position up by one. -/
theorem visits_pos {n : Nat} {s t : State} (h : times n visitOp s = .next t) : t.pos = s.pos + BitVec.ofNat 13 n := by
  induction n generalizing s with
  | zero =>
    cases h
    simp
  | succ n ih =>
    obtain ⟨u, hu, ht⟩ := andThen_eq_next.1 h
    rw [ih ht, visitOp_pos hu, BitVec.add_assoc, Nat.add_comm n 1, BitVec.ofNat_add]
    rfl

/-- Rows packed one after another from the start of a row are one run of visits. -/
theorem rows_eq_visits {n : Nat} {s : State} (h : s.pos.toNat % 1024 = 0) :
    times n packRowOp s = times (1024 * n) visitOp s := by
  induction n generalizing s with
  | zero => rfl
  | succ n ih =>
    rw [times_succ, Nat.mul_succ, Nat.add_comm, times_add, packRowOp_eq, rowInit_of_aligned h]
    cases hrow : times 1024 visitOp s with
    | next t =>
      refine ih ?_
      rw [visits_pos hrow, BitVec.toNat_add, BitVec.toNat_ofNat]
      omega
    | fault f => rfl
    | refused e => rfl

/-- PACK's rows are 8192 visits from the position 0. -/
theorem packOp_eq_visits (s : State) : packOp s = andThen (times 8192 visitOp (packInit s)) pflushOp := by
  have hrows : times 8 packRowOp (packInit s) = times 8192 visitOp (packInit s) := rows_eq_visits (n := 8) rfl
  rw [← hrows]
  rfl

/-- After the visits of PACK there is no partial byte, and CUR holds the frame. -/
theorem packVisits_run (s : State) : ∃ t, times 8192 visitOp (packInit s) = .next t ∧ Visited (packInit s) 8192 t ∧
    t = { s with cur := t.cur, oidx := 1024, acc := 0, bitcnt := 0, pos := 0 } := by
  have hroom : (packInit s).bitcnt.toNat + 8192 < 8 * (1024 - (packInit s).oidx.toNat) + 8 := by
    rw [packInit_bitcnt, packInit_oidx]
    decide
  obtain ⟨t, ht, h⟩ := visits_run (s := packInit s) (Nat.zero_lt_succ 7) hroom
  have hcount : 8 * t.oidx.toNat + t.bitcnt.toNat = 8192 := by simpa using h.count
  have hrange := h.bitcntRange
  have hoidx : t.oidx = 1024 := BitVec.eq_of_toNat_eq (show t.oidx.toNat = 1024 by omega)
  have hbit : t.bitcnt = 0 := BitVec.eq_of_toNat_eq (show t.bitcnt.toNat = 0 by omega)
  have hpos : t.pos = 0 := by simpa using h.pos
  have hacc : t.acc = 0 := by
    refine BitVec.eq_of_getLsbD_eq fun j hj => ?_
    rw [h.accBits rfl rfl j hj, hbit]
    simp
  refine ⟨t, ht, h, ?_⟩
  obtain ⟨_, _, _, _, _, hframe⟩ := h.frame
  rw [← hoidx, ← hbit, ← hpos, ← hacc, hframe]
  rfl

/-- What PACK leaves in CUR (R136): the layout of the sources, and the bytes beyond the frame. -/
structure PackedInto (s : State) (cur : Memory) : Prop where
  wf : cur.wf = true
  layout : packedFrom s cur
  beyond : ∀ a, 1024 ≤ a → cur.read a = s.cur.read a

/-- PACK completes in every state. -/
theorem packOp_run (s : State) : ∃ cur,
    packOp s = .next { s with cur := cur, oidx := 1024, acc := 0, bitcnt := 0, pos := 0 } ∧
    (s.cur.wf = true → PackedInto s cur) := by
  obtain ⟨t, ht, h, hframe⟩ := packVisits_run s
  have hoidx : t.oidx.toNat = 1024 := by
    rw [hframe]
    rfl
  refine ⟨t.cur, ?_, fun hwf => ⟨h.curWf hwf, fun R p k j hR hp hk hj => ?_, fun a ha => ?_⟩⟩
  · rw [packOp_eq_visits, ht, andThen_next, ← hframe]
    exact pflushOp_of_bitcnt_zero (by rw [hframe])
  · have hbits := h.curBits hwf rfl rfl (128 * R + 16 * p + k) j hj (Nat.zero_le _) (by omega)
    have hn : (0 + 8 * (128 * R + 16 * p + k - 0) + j) % 8192 = 1024 * R + 128 * p + (8 * k + j) := by omega
    exact hbits.trans ((congrArg (sourceBit s) hn).trans (sourceBit_at _ _ hp (by omega)))
  · exact h.outside hwf a (.inr (by omega))

/-- Settles O18: what a completed PACK has left. -/
theorem packComputesTheFrameLayout : Obligations.PackComputesTheFrameLayout := by
  intro s hwf
  obtain ⟨cur, hpack, hcur⟩ := packOp_run s
  exact ⟨cur, hpack, (hcur hwf).layout, (hcur hwf).beyond⟩

/-- The layout read from the source's side: where column `c` of plane `p` stands. -/
theorem packedFrom.sourceBit {s : State} {cur : Memory} (h : packedFrom s cur) {R c p : Nat} (hR : R < 8) (hc : c < 128)
    (hp : p < 8) : (srcByte s R c).getLsbD p = (cur.read (128 * R + 16 * p + c / 8)).getLsbD (c % 8) := by
  have hcol : 8 * (c / 8) + c % 8 = c := by omega
  have := h R p (c / 8) (c % 8) hR hp (by omega) (by omega)
  rw [hcol] at this
  exact this.symm

/-- Settles O19: the layout read from the source's side, in one frame and in two that agree. -/
theorem packLosesNothing : Obligations.PackLosesNothing := by
  constructor
  · intro s hwf
    obtain ⟨cur, hpack, hcur⟩ := packOp_run s
    exact ⟨_, hpack, fun R c p hR hc hp => (hcur hwf).layout.sourceBit hR hc hp⟩
  · intro s u t v hswf huwf ht hv hsame R c hR hc
    obtain ⟨cur, hpack, hcur⟩ := packOp_run s
    obtain ⟨cur', hpack', hcur'⟩ := packOp_run u
    cases hpack.symm.trans ht
    cases hpack'.symm.trans hv
    refine BitVec.eq_of_getLsbD_eq fun p hp => ?_
    rw [(hcur hswf).layout.sourceBit hR hc hp, (hcur' huwf).layout.sourceBit hR hc hp, hsame _ (by simp; omega)]

theorem blkOf_getD (m : Memory) (b : Nat) {k : Nat} (hk : k < 8) : (blkOf m b).getD k 0 = m.read (8 * b + k) := by
  simp [blkOf, hk]

/-- Settles O20: the byte of the block, split into row, plane and half, in the layout. -/
theorem aBlockIsHalfAPixelLine : Obligations.ABlockIsHalfAPixelLine := by
  intro s hwf
  obtain ⟨cur, hpack, hcur⟩ := packOp_run s
  refine ⟨_, hpack, fun b m j hb hm hj => ?_⟩
  have haddr : 8 * b + m = 128 * (b / 16) + 16 * (b / 2 % 8) + (8 * (b % 2) + m) := by omega
  have hcol : 8 * (8 * (b % 2) + m) + j = 64 * (b % 2) + 8 * m + j := by omega
  rw [blkOf_getD _ _ hm, haddr, (hcur hwf).layout _ _ _ _ (by omega) (by omega) (by omega) hj, hcol]

end Sys2Proof.Machine
end

section
/-! The block comparator, the selector and the pass over the blocks (spec/43_delta_selector.md): which blocks are selected, what
one block of the pass does, and what a whole pass has emitted. -/

namespace Sys2Proof.Machine

/-! CMP8 and SEL: which blocks are selected (R151, R152) -/

@[simp] theorem blkOf_length (m : Memory) (b : Nat) : (blkOf m b).length = 8 := by simp [blkOf]

theorem blkOf_eq_iff (m m' : Memory) (b : Nat) :
    blkOf m b = blkOf m' b ↔ ∀ k, k < 8 → m.read (8 * b + k) = m'.read (8 * b + k) := by
  simp [blkOf]

/-- Lanes or-ed together are 0 exactly where each of them is. -/
theorem foldl_or_eq_zero_iff (lanes : List Byte) (acc : Byte) :
    lanes.foldl (· ||| ·) acc = 0 ↔ acc = 0 ∧ ∀ x ∈ lanes, x = 0 := by
  induction lanes generalizing acc with
  | nil => simp
  | cons x lanes ih =>
    rw [List.foldl_cons, ih, BitVec.ofNat_eq_ofNat, BitVec.or_eq_zero_iff, List.forall_mem_cons, and_assoc]

theorem changedFlag_iff (cur prev : Memory) (b : Nat) :
    changedFlag cur prev b = true ↔ ∃ m, m < 8 ∧ cur.read (8 * b + m) ≠ prev.read (8 * b + m) := by
  rw [changedFlag, decide_eq_true_iff, Ne, foldl_or_eq_zero_iff]
  simp [diffLanes, BitVec.xor_eq_zero_iff]

theorem forcedFlag_iff (b : BitVec 8) (cursor : BitVec 7) : forcedFlag b cursor = true ↔ b.toNat = cursor.toNat :=
  decide_eq_true_iff

theorem includeFlag_iff (changed forced force : Bool) :
    includeFlag changed forced force = true ↔ changed = true ∨ forced = true ∨ force = true := by
  simp [includeFlag, or_assoc]

theorem selected_iff (force : Bool) (cursor : BitVec 7) (cur prev : Memory) (b : Nat) :
    selected force cursor cur prev b = true ↔
      blkOf cur b ≠ blkOf prev b ∨ b = cursor.toNat ∨ force = true := by
  simp [selected, or_assoc]

/-- What CMP8 and SEL compute of a block is whether it is selected. -/
theorem includeFlag_eq_selected (force : Bool) (cursor : BitVec 7) (cur prev : Memory) (b : BitVec 8) :
    includeFlag (changedFlag cur prev b.toNat) (forcedFlag b cursor) force = selected force cursor cur prev b.toNat := by
  rw [Bool.eq_iff_iff, includeFlag_iff, changedFlag_iff, forcedFlag_iff, selected_iff, Ne, blkOf_eq_iff]
  simp

theorem cmp8Op_of_lt {s : State} (hb : s.blk.toNat < 128) :
    cmp8Op s = .next { s with changed := changedFlag s.cur s.prev s.blk.toNat } :=
  cmp8Op_eq_next.2 ⟨hb, rfl⟩

/-- Settles O21: CMP8 on either side of the last block. -/
theorem cmp8DetectsAnyDifference : Obligations.Cmp8DetectsAnyDifference :=
  fun s => ⟨fun hb => ⟨_, cmp8Op_of_lt hb, changedFlag_iff s.cur s.prev s.blk.toNat⟩, fun hb => if_neg (Nat.not_lt.2 hb)⟩

/-- Settles O22: SEL's equation and its two signals. -/
theorem selIncludesChangedForcedOrAll : Obligations.SelIncludesChangedForcedOrAll :=
  fun _ => ⟨_, _, rfl, forcedFlag_iff _ _, includeFlag_iff _ _ _⟩

/-! EMITBLK and GROUP (R153, R76) -/

theorem emitGroupOp_of_room {b : Nat} {data : List Byte} {s : State} (hb : b < 128) (hroom : s.dlen.toNat + 9 ≤ 1152) :
    emitGroupOp b data s = .next { s with
      delta := s.delta.writeBytes s.dlen.toNat (BitVec.ofNat 8 b :: data)
      dlen := s.dlen + 9
      prev := s.prev.writeBytes (8 * b) data } :=
  emitGroupOp_eq_next.2 ⟨hb, hroom, rfl⟩

theorem emitGroupOp_blockOutOfRange {b : Nat} (data : List Byte) (s : State) (hb : 128 ≤ b) :
    emitGroupOp b data s = .fault .blockOutOfRange :=
  if_neg (Nat.not_lt.2 hb)

theorem emitGroupOp_deltaOverrun {b : Nat} (data : List Byte) {s : State} (hb : b < 128) (hfull : 1152 < s.dlen.toNat + 9) :
    emitGroupOp b data s = .fault .deltaOverrun := by
  rw [emitGroupOp, if_pos hb, if_neg (Nat.not_le.2 hfull)]

/-- PREV after a block of CUR is copied to it. -/
theorem read_writeBytes_blkOf {m : Memory} (hm : m.wf = true) (cur : Memory) (b a : Nat) :
    (m.writeBytes (8 * b) (blkOf cur b)).read a = if 8 * b ≤ a ∧ a < 8 * b + 8 then cur.read a else m.read a := by
  rw [Memory.read_writeBytes _ _ _ hm, blkOf_length]
  refine ite_congr rfl (fun ha => ?_) fun _ => rfl
  rw [blkOf_getD _ _ (by omega)]
  congr 1
  omega

/-- DELTA after a group of CUR's bytes is appended to it. -/
theorem read_writeBytes_group {m : Memory} (hm : m.wf = true) (cur : Memory) (b : BitVec 8) (n a : Nat) :
    (m.writeBytes n (BitVec.ofNat 8 b.toNat :: blkOf cur b.toNat)).read a =
      if a = n then b else if n < a ∧ a < n + 9 then cur.read (8 * b.toNat + (a - n - 1)) else m.read a := by
  rw [Memory.read_writeBytes _ _ _ hm, List.length_cons, blkOf_length]
  by_cases ha : a = n
  · subst ha
    simp
  · rw [if_neg ha]
    refine ite_congr (by simp; omega) (fun hin => ?_) fun _ => rfl
    have hsucc : a - n = a - n - 1 + 1 := by omega
    rw [hsucc, List.getD_cons_succ, blkOf_getD _ _ (by omega)]
    rfl

/-- Settles O23: EMITBLK with room for the group, and its two stops. -/
theorem emitblkAppendsTheGroupAndUpdatesPrev : Obligations.EmitblkAppendsTheGroupAndUpdatesPrev := by
  intro s hdelta hprev
  refine ⟨fun hb hroom => ⟨_, _, emitGroupOp_of_room hb hroom, ?_, ?_⟩, emitGroupOp_blockOutOfRange _ s,
    emitGroupOp_deltaOverrun _⟩
  · exact read_writeBytes_group hdelta s.cur s.blk s.dlen.toNat
  · exact read_writeBytes_blkOf hprev s.cur s.blk.toNat

theorem exec_group_of_wf {g : Group} (hg : g.wf = true) (s : State) :
    exec (.group g) s = emitGroupOp g.index.toNat g.data s := if_pos hg

/-- Settles O24: GROUP with room for the group, and its two stops. -/
theorem groupAppendsItselfAndUpdatesPrev : Obligations.GroupAppendsItselfAndUpdatesPrev := by
  intro g s hdelta hprev
  refine ⟨fun hg hroom => ?_, fun hg hfull => ?_, fun hg => ?_⟩
  · obtain ⟨hindex, hdata⟩ := (Group.wf_iff g).1 hg
    refine ⟨_, _, (exec_group_of_wf hg s).trans (emitGroupOp_of_room hindex hroom), fun a => ?_, fun a => ?_⟩
    · rw [Memory.read_writeBytes _ _ _ hdelta, List.length_cons, hdata, BitVec.ofNat_toNat, BitVec.setWidth_eq]
    · rw [Memory.read_writeBytes _ _ _ hprev, hdata]
  · obtain ⟨hindex, -⟩ := (Group.wf_iff g).1 hg
    rw [exec_group_of_wf hg]
    exact emitGroupOp_deltaOverrun _ hindex hfull
  · exact if_neg (by rw [hg]; exact Bool.false_ne_true)

/-! One block of the pass (R150, R154) -/

/-- A selected block is emitted. -/
theorem blockOp_of_selected {s : State} (hb : s.blk.toNat < 128) (hroom : s.dlen.toNat + 9 ≤ 1152)
    (hsel : selected s.force s.cursor s.cur s.prev s.blk.toNat = true) :
    blockOp s = .next { s with
      changed := changedFlag s.cur s.prev s.blk.toNat
      forced := forcedFlag s.blk s.cursor
      included := true
      delta := s.delta.writeBytes s.dlen.toNat (BitVec.ofNat 8 s.blk.toNat :: blkOf s.cur s.blk.toNat)
      dlen := s.dlen + 9
      prev := s.prev.writeBytes (8 * s.blk.toNat) (blkOf s.cur s.blk.toNat)
      blk := s.blk + 1 } := by
  have hincl := (includeFlag_eq_selected s.force s.cursor s.cur s.prev s.blk).trans hsel
  refine blockOp_eq_next.2 ⟨_, _, cmp8Op_of_lt hb, .inl ⟨hincl, emitGroupOp_of_room hb hroom⟩, ?_⟩
  simp only [selOp, hincl]

/-- A block that is not selected costs nothing. -/
theorem blockOp_of_not_selected {s : State} (hb : s.blk.toNat < 128)
    (hsel : selected s.force s.cursor s.cur s.prev s.blk.toNat = false) :
    blockOp s = .next { s with
      changed := changedFlag s.cur s.prev s.blk.toNat
      forced := forcedFlag s.blk s.cursor
      included := false
      blk := s.blk + 1 } := by
  have hincl := (includeFlag_eq_selected s.force s.cursor s.cur s.prev s.blk).trans hsel
  refine blockOp_eq_next.2 ⟨_, _, cmp8Op_of_lt hb, .inr ⟨hincl, rfl⟩, ?_⟩
  simp only [selOp, hincl]

/-- The forced block is selected (R161). -/
theorem selected_of_eq_cursor (force : Bool) {cursor : BitVec 7} (cur prev : Memory) {b : Nat} (h : b = cursor.toNat) :
    selected force cursor cur prev b = true :=
  (selected_iff _ _ _ _ _).2 (.inr (.inl h))

/-- One block of the pass, as far as the lengths go: at most one group more, and one more for the forced block. -/
theorem blockOp_run {s : State} (hb : s.blk.toNat < 128) (hroom : s.dlen.toNat + 9 ≤ 1152) :
    ∃ t, blockOp s = .next t ∧ t.blk.toNat = s.blk.toNat + 1 ∧ s.dlen.toNat ≤ t.dlen.toNat ∧
      t.dlen.toNat ≤ s.dlen.toNat + 9 ∧ (s.blk.toNat = s.cursor.toNat → t.dlen.toNat = s.dlen.toNat + 9) := by
  have hblk : (s.blk + 1).toNat = s.blk.toNat + 1 := by bv_omega
  have hdlen : (s.dlen + 9).toNat = s.dlen.toNat + 9 := by bv_omega
  cases hsel : selected s.force s.cursor s.cur s.prev s.blk.toNat with
  | true =>
    refine ⟨_, blockOp_of_selected hb hroom hsel, hblk, ?_, ?_, fun _ => hdlen⟩ <;>
    · simp only [hdlen]
      omega
  | false =>
    refine ⟨_, blockOp_of_not_selected hb hsel, hblk, Nat.le_refl _, Nat.le_add_right .., fun hforced => ?_⟩
    rw [selected_of_eq_cursor _ _ _ hforced] at hsel
    cases hsel

/-- A block that is not selected has not changed. -/
theorem blkOf_eq_of_not_selected {force : Bool} {cursor : BitVec 7} {cur prev : Memory} {b : Nat}
    (h : selected force cursor cur prev b = false) : blkOf cur b = blkOf prev b := by
  by_contra hne
  rw [(selected_iff _ _ _ _ _).2 (.inl hne)] at h
  cases h

/-- The move of DELTA by its block: after the last there is ADVANCE, and FRAME is next. -/
theorem deltaMove_of_blockOp {s t : State} (h : blockOp s = .next t) :
    deltaMove s = .next (if t.blk.toNat = 128 then { advanceOp t with phase := .frame } else t) := by
  rw [deltaMove, h, andThen_next]
  split <;> rfl

/-- Settles O26: the move of DELTA on a block that is not selected, the last block or one before. -/
theorem aBlockThatIsNotIncludedCostsNothing : Obligations.ABlockThatIsNotIncludedCostsNothing := by
  intro s hbench hst hr hphase hb hsel
  have hstep : step s = deltaMove s := by
    rw [step_of_no_stimulus hbench hst, tick_of_not_rst hr, phaseMove, hphase]
  rw [hstep, deltaMove_of_blockOp (blockOp_of_not_selected hb hsel)]
  refine ⟨_, rfl, ?_⟩
  split <;> exact ⟨rfl, rfl, rfl, rfl⟩

/-! The groups of the blocks below `n`, and the bytes they add to DELTA -/

/-- The groups a pass has emitted once it has examined the blocks below `n`. -/
def groupsBelow (n : Nat) (force : Bool) (cursor : BitVec 7) (cur prev : Memory) : List Group :=
  ((List.range n).filter (selected force cursor cur prev)).map fun b => ⟨BitVec.ofNat 8 b, blkOf cur b⟩

/-- After the whole pass these are the selected groups. -/
theorem groupsBelow_all (force : Bool) (cursor : BitVec 7) (cur prev : Memory) :
    groupsBelow 128 force cursor cur prev = selectedGroups force cursor cur prev := rfl

theorem groupsBelow_succ_of_selected {n : Nat} {force : Bool} {cursor : BitVec 7} {cur prev : Memory}
    (h : selected force cursor cur prev n = true) :
    groupsBelow (n + 1) force cursor cur prev =
      groupsBelow n force cursor cur prev ++ [⟨BitVec.ofNat 8 n, blkOf cur n⟩] := by
  simp [groupsBelow, List.range_succ, h]

theorem groupsBelow_succ_of_not_selected {n : Nat} {force : Bool} {cursor : BitVec 7} {cur prev : Memory}
    (h : selected force cursor cur prev n = false) :
    groupsBelow (n + 1) force cursor cur prev = groupsBelow n force cursor cur prev := by
  simp [groupsBelow, List.range_succ, h]

theorem payloadBytes_append (gs hs : List Group) : payloadBytes (gs ++ hs) = payloadBytes gs ++ payloadBytes hs :=
  List.flatMap_append

/-- Bytes written at the end of a payload are appended to it. -/
theorem map_read_writeBytes {m : Memory} (hm : m.wf = true) (n : Nat) (bs : List Byte) :
    (List.range (n + bs.length)).map (m.writeBytes n bs).read = (List.range n).map m.read ++ bs := by
  refine List.ext_getElem (by simp) fun i h1 h2 => ?_
  simp only [List.getElem_map, List.getElem_range, Memory.read_writeBytes _ _ _ hm, List.getElem_append, List.length_map,
    List.length_range] at *
  by_cases hi : i < n
  · rw [if_neg (by omega), dif_pos hi]
  · have hlt : i - n < bs.length := by
      simp at h1
      omega
    rw [if_pos (by simp at h1; omega), dif_neg hi, List.getD_eq_getElem _ _ hlt]

/-! A run of blocks -/

/-- Bytes that are `x` below block `k` are so below the next, once block `k` has been written. -/
theorem ite_block_written (a k : Nat) (x y : Byte) :
    (if 8 * k ≤ a ∧ a < 8 * k + 8 then x else if a < 8 * k then x else y) = if a < 8 * (k + 1) then x else y := by
  by_cases hhi : a < 8 * (k + 1)
  · by_cases hlo : a < 8 * k
    · rw [if_neg (by omega), if_pos hlo, if_pos hhi]
    · rw [if_pos (by omega), if_pos hhi]
  · rw [if_neg (by omega), if_neg (by omega), if_neg hhi]

/-- Bytes that are `m`'s below block `k` are so below the next, where the block is the same in both buffers. -/
theorem ite_block_same {m m' : Memory} {k : Nat} (h : blkOf m k = blkOf m' k) (a : Nat) :
    (if a < 8 * k then m.read a else m'.read a) = if a < 8 * (k + 1) then m.read a else m'.read a := by
  by_cases hlo : a < 8 * k
  · rw [if_pos hlo, if_pos (by omega)]
  · by_cases hhi : a < 8 * (k + 1)
    · have hbyte := (blkOf_eq_iff _ _ _).1 h (a - 8 * k) (by omega)
      rw [Nat.add_sub_cancel' (by omega)] at hbyte
      rw [if_neg hlo, if_pos hhi, hbyte]
    · rw [if_neg hlo, if_neg hhi]

/-- `t` is reached from `s`, where the pass begins, by examining the blocks below `k`. PREV holds CUR's bytes in them, and DELTA the
groups of those that were selected against PREV as it was. -/
structure Passed (s : State) (k : Nat) (t : State) : Prop where
  frame : PassFrame s t
  blk : t.blk.toNat = k
  dlenLe : t.dlen.toNat ≤ 9 * k
  forcedIn : s.cursor.toNat < k → 9 ≤ t.dlen.toNat
  prevWf : s.prev.wf = true → t.prev.wf = true
  deltaWf : s.delta.wf = true → t.delta.wf = true
  prevRead : s.prev.wf = true → ∀ a, t.prev.read a = if a < 8 * k then s.cur.read a else s.prev.read a
  deltaBeyond : s.delta.wf = true → ∀ a, t.dlen.toNat ≤ a → t.delta.read a = s.delta.read a
  dlen : s.prev.wf = true → t.dlen.toNat = 9 * (groupsBelow k s.force s.cursor s.cur s.prev).length
  payload : s.prev.wf = true → s.delta.wf = true →
    deltaPayload t = payloadBytes (groupsBelow k s.force s.cursor s.cur s.prev)

theorem Passed.refl {s : State} (hblk : s.blk = 0) (hdlen : s.dlen = 0) : Passed s 0 s where
  frame := ⟨_, _, _, _, _, _, _, rfl⟩
  blk := by simp [hblk]
  dlenLe := by simp [hdlen]
  forcedIn := by simp
  prevWf := id
  deltaWf := id
  prevRead := by simp
  deltaBeyond := fun _ _ _ => rfl
  dlen := by simp [hdlen, groupsBelow]
  payload := by simp [hdlen, groupsBelow, deltaPayload, payloadBytes]

section
variable {s t : State} {k : Nat}

/-- The block examined next is compared with PREV as it was before the pass: no earlier block has touched it. -/
theorem Passed.blkOf_prev (h : Passed s k t) (hwf : s.prev.wf = true) : blkOf t.prev k = blkOf s.prev k := by
  rw [blkOf_eq_iff]
  intro m hm
  rw [h.prevRead hwf, if_neg (by omega)]

theorem Passed.cur (h : Passed s k t) : t.cur = s.cur := by
  obtain ⟨_, _, _, _, _, _, _, rfl⟩ := h.frame
  rfl

theorem Passed.force (h : Passed s k t) : t.force = s.force := by
  obtain ⟨_, _, _, _, _, _, _, rfl⟩ := h.frame
  rfl

theorem Passed.selected_eq (h : Passed s k t) (hwf : s.prev.wf = true) :
    selected t.force t.cursor t.cur t.prev t.blk.toNat = selected s.force s.cursor s.cur s.prev k := by
  rw [h.cur, h.force, h.frame.cursor, h.blk, selected, selected, h.blkOf_prev hwf]

/-- The next block, selected. -/
theorem Passed.emit (h : Passed s k t) (hk : k < 128) (hroom : t.dlen.toNat + 9 ≤ 1152)
    (hsel : selected t.force t.cursor t.cur t.prev t.blk.toNat = true) :
    ∃ u, blockOp t = .next u ∧ Passed s (k + 1) u := by
  have hb : t.blk.toNat < 128 := h.blk ▸ hk
  have hblk : (t.blk + 1).toNat = t.blk.toNat + 1 := by bv_omega
  have hdlen : (t.dlen + 9).toNat = t.dlen.toNat + 9 := by bv_omega
  have hlen := h.dlenLe
  refine ⟨_, blockOp_of_selected hb hroom hsel, h.frame.trans ⟨_, _, _, _, _, _, _, rfl⟩, hblk.trans (by rw [h.blk]), ?dlenLe,
    ?forcedIn, fun hp => Memory.writeBytes_wf _ _ (h.prevWf hp), fun hd => Memory.writeBytes_wf _ _ (h.deltaWf hd), ?prevRead,
    ?beyond, ?dlen, ?payload⟩
  case dlenLe =>
    simp only [hdlen]
    omega
  case forcedIn =>
    intro _
    simp only [hdlen]
    omega
  case prevRead =>
    intro hp a
    simp only [read_writeBytes_blkOf (h.prevWf hp), h.blk, h.cur, h.prevRead hp]
    exact ite_block_written ..
  case beyond =>
    intro hd a ha
    simp only [hdlen] at ha
    rw [Memory.read_writeBytes _ _ _ (h.deltaWf hd), List.length_cons, blkOf_length, if_neg (by omega)]
    exact h.deltaBeyond hd a (by omega)
  case dlen =>
    intro hp
    have hsel' := (h.selected_eq hp).symm.trans hsel
    have := h.dlen hp
    simp only [hdlen, groupsBelow_succ_of_selected hsel', List.length_append, List.length_singleton]
    omega
  case payload =>
    intro hp hd
    have hsel' := (h.selected_eq hp).symm.trans hsel
    have hbytes := map_read_writeBytes (h.deltaWf hd) t.dlen.toNat (BitVec.ofNat 8 t.blk.toNat :: blkOf t.cur t.blk.toNat)
    rw [List.length_cons, blkOf_length] at hbytes
    rw [groupsBelow_succ_of_selected hsel', payloadBytes_append, ← h.payload hp hd]
    simp only [deltaPayload, hdlen]
    rw [hbytes, h.blk, h.cur]
    simp [payloadBytes, Group.bytes]

/-- The next block, not selected. -/
theorem Passed.skip (h : Passed s k t) (hk : k < 128)
    (hsel : selected t.force t.cursor t.cur t.prev t.blk.toNat = false) :
    ∃ u, blockOp t = .next u ∧ Passed s (k + 1) u := by
  have hb : t.blk.toNat < 128 := h.blk ▸ hk
  have hblk : (t.blk + 1).toNat = t.blk.toNat + 1 := by bv_omega
  have hlen := h.dlenLe
  refine ⟨_, blockOp_of_not_selected hb hsel, h.frame.trans ⟨_, _, _, _, _, _, _, rfl⟩, hblk.trans (by rw [h.blk]), ?dlenLe,
    ?forcedIn, h.prevWf, h.deltaWf, ?prevRead, h.deltaBeyond, ?dlen, ?payload⟩
  case dlenLe => exact hlen.trans (by omega)
  case forcedIn =>
    intro hcur
    refine h.forcedIn (Nat.lt_of_le_of_ne (Nat.le_of_lt_succ hcur) fun heq => ?_)
    rw [selected_of_eq_cursor _ _ _ (by rw [h.blk, h.frame.cursor, heq])] at hsel
    cases hsel
  case prevRead =>
    intro hp a
    have hsame := blkOf_eq_of_not_selected ((h.selected_eq hp).symm.trans hsel)
    exact (h.prevRead hp a).trans (ite_block_same hsame a)
  case dlen =>
    intro hp
    rw [groupsBelow_succ_of_not_selected ((h.selected_eq hp).symm.trans hsel)]
    exact h.dlen hp
  case payload =>
    intro hp hd
    rw [groupsBelow_succ_of_not_selected ((h.selected_eq hp).symm.trans hsel)]
    exact h.payload hp hd

end

/-- The blocks of a pass: it completes in every state. -/
theorem blocks_run (s : State) : ∃ t, times 128 blockOp (passInit s) = .next t ∧ Passed (passInit s) 128 t := by
  refine times_runs (fun k t hk h => ?_) (Passed.refl rfl rfl)
  cases hsel : selected t.force t.cursor t.cur t.prev t.blk.toNat with
  | true => exact h.emit hk (by have := h.dlenLe; omega) hsel
  | false => exact h.skip hk hsel

/-! DPASS (R150) -/

/-- What DPASS leaves: at least one group and at most 128, the selected groups in DELTA, and CUR's frame in PREV. -/
structure PassDone (s t : State) : Prop where
  frame : t = { s with prev := t.prev, delta := t.delta, dlen := t.dlen, blk := t.blk, changed := t.changed,
                       forced := t.forced, included := t.included, cursor := t.cursor }
  cursor : t.cursor = s.cursor + 1
  blk : t.blk = 128
  dlenPos : 9 ≤ t.dlen.toNat
  dlenLe : t.dlen.toNat ≤ 1152
  prevWf : s.prev.wf = true → t.prev.wf = true
  deltaWf : s.delta.wf = true → t.delta.wf = true
  prevFrame : s.prev.wf = true → sameFrame t.prev s.cur
  prevBeyond : s.prev.wf = true → ∀ a, 1024 ≤ a → t.prev.read a = s.prev.read a
  deltaBeyond : s.delta.wf = true → ∀ a, t.dlen.toNat ≤ a → t.delta.read a = s.delta.read a
  dlen : s.prev.wf = true → t.dlen.toNat = 9 * (selectedGroups s.force s.cursor s.cur s.prev).length
  payload : s.prev.wf = true → s.delta.wf = true →
    deltaPayload t = payloadBytes (selectedGroups s.force s.cursor s.cur s.prev)

/-- DPASS completes in every state. -/
theorem dpassOp_run (s : State) : ∃ t, dpassOp s = .next t ∧ PassDone s t := by
  obtain ⟨u, hu, h⟩ := blocks_run s
  refine ⟨advanceOp u, dpassOp_eq_next.2 ⟨u, hu, rfl⟩, ?frame, ?cursor, BitVec.eq_of_toNat_eq h.blk,
    h.forcedIn s.cursor.isLt, h.dlenLe, h.prevWf, h.deltaWf, fun hp a ha => ?inFrame, fun hp a ha => ?beyond, h.deltaBeyond,
    h.dlen, h.payload⟩
  case frame =>
    obtain ⟨_, _, _, _, _, _, _, rfl⟩ := h.frame
    rfl
  case cursor => rw [advanceOp_cursor, h.frame.cursor, passInit_cursor]
  case inFrame => exact (h.prevRead hp a).trans (if_pos ha)
  case beyond => exact (h.prevRead hp a).trans (if_neg (Nat.not_lt.2 ha))

/-- Settles O25: what a completed DPASS has left. -/
theorem dpassEmitsExactlyTheSelectedBlocks : Obligations.DpassEmitsExactlyTheSelectedBlocks := by
  intro s hp hd
  obtain ⟨t, ht, h⟩ := dpassOp_run s
  exact ⟨t, ht, h.payload hp hd, h.dlen hp, h.dlenPos, h.deltaBeyond hd, h.prevFrame hp, h.prevBeyond hp, h.cursor, h.blk,
    h.frame⟩

end Sys2Proof.Machine
end

section
/-! SHOT as one transition (spec/40_shot_invocation.md): the frame it sends where the gate lets it proceed, and the two ways it
ends. -/

namespace Sys2Proof.Machine

/-! The groups of a payload (R76, R77, R89) -/

theorem mem_selectedGroups {force : Bool} {cursor : BitVec 7} {cur prev : Memory} {g : Group} :
    g ∈ selectedGroups force cursor cur prev ↔
      ∃ b, b < 128 ∧ selected force cursor cur prev b = true ∧ g = ⟨BitVec.ofNat 8 b, blkOf cur b⟩ := by
  simp only [selectedGroups, List.mem_map, List.mem_filter, List.mem_range, and_assoc, Config.nBlocks]
  exact exists_congr fun b => and_congr_right fun _ => and_congr_right fun _ => eq_comm

/-- The forced block's group is in every payload (R161). -/
theorem forcedGroup_mem (force : Bool) (cursor : BitVec 7) (cur prev : Memory) :
    ⟨BitVec.ofNat 8 cursor.toNat, blkOf cur cursor.toNat⟩ ∈ selectedGroups force cursor cur prev :=
  mem_selectedGroups.2 ⟨_, cursor.isLt, selected_of_eq_cursor _ _ _ rfl, rfl⟩

theorem selectedGroups_pairwise (force : Bool) (cursor : BitVec 7) (cur prev : Memory) :
    (selectedGroups force cursor cur prev).Pairwise fun g h => g.index.toNat < h.index.toNat := by
  refine List.pairwise_map.2 ((List.pairwise_lt_range.filter _).imp_of_mem fun {a b} _ hb hab => ?_)
  have hlt : b < 128 := List.mem_range.1 (List.mem_filter.1 hb).1
  simp only [BitVec.toNat_ofNat]
  omega

/-- The selected groups are a payload the block can send (R89). -/
theorem wfPayload_selectedGroups (force : Bool) (cursor : BitVec 7) (cur prev : Memory) :
    wfPayload (selectedGroups force cursor cur prev) = true := by
  refine (wfPayload_iff _).2 ⟨List.length_pos_of_mem (forcedGroup_mem force cursor cur prev), ?_, fun g hg => ?_,
    (ascending_iff_pairwise _).2 (selectedGroups_pairwise ..)⟩
  · have hlen := List.length_filter_le (selected force cursor cur prev) (List.range 128)
    simpa [selectedGroups] using hlen
  · obtain ⟨b, hb, -, rfl⟩ := mem_selectedGroups.1 hg
    refine (Group.wf_iff _).2 ⟨?_, blkOf_length cur b⟩
    simp only [BitVec.toNat_ofNat]
    omega

/-- The receiver reads the groups back from the frame. -/
theorem decode_wireBytes {gs : List Group} (hgs : wfPayload gs = true) :
    decode .wire (wireBytes (payloadBytes gs)) = .ok (.wire gs) :=
  decode_eq_ok_iff.2 ⟨hgs, rfl⟩

/-! What a SHOT that proceeds leaves (R101, R103) -/

theorem buffersWf_iff (s : State) : s.buffersWf = true ↔
    s.prev.wf = true ∧ s.cur.wf = true ∧ s.delta.wf = true ∧ s.status.wf = true ∧ s.fb.wf = true := by
  simp [State.buffersWf, and_assoc]

/-- What a SHOT with command bit `f` leaves where it proceeds. CURSOR, KEEPALIVE and the outcome are as said in every state; what
was packed, sent and copied is said of buffers in canonical form. -/
structure ShotSent (f : Bool) (s t : State) : Prop where
  phase : t.phase = .idle
  outcome : t.outcome = .sent
  done : t.done = true
  cursor : t.cursor = s.cursor + 1
  keepalive : t.keepalive = gateKeepalive s.linkPresent s.keepalive
  force : t.force = f
  resets : t.resets = s.resets
  bitcnt : t.bitcnt = 0
  environment : t.environment = s.environment
  stream : t.stream = s.stream ++ t.tx
  packed : s.cur.wf = true → PackedInto s t.cur
  prevWf : s.prev.wf = true → t.prev.wf = true
  deltaWf : s.delta.wf = true → t.delta.wf = true
  prevFrame : s.prev.wf = true → sameFrame t.prev t.cur
  prevBeyond : s.prev.wf = true → ∀ a, 1024 ≤ a → t.prev.read a = s.prev.read a
  deltaBeyond : s.delta.wf = true → ∀ a, t.dlen.toNat ≤ a → t.delta.read a = s.delta.read a
  dlen : s.prev.wf = true → t.dlen.toNat = 9 * (selectedGroups f s.cursor t.cur s.prev).length
  payload : s.prev.wf = true → s.delta.wf = true →
    deltaPayload t = payloadBytes (selectedGroups f s.cursor t.cur s.prev)
  tx : s.prev.wf = true → s.delta.wf = true →
    t.tx = wireBytes (payloadBytes (selectedGroups f s.cursor t.cur s.prev))

/-- The framer's part where the payload is not empty. -/
def frameSent (s : State) : State := exitInvocation .sent (sendFrame (deltaPayload s) (emptyChkOp s))

theorem transmitPart_of_pos {s : State} (hpos : 9 ≤ s.dlen.toNat) (hle : s.dlen.toNat ≤ 1152) :
    transmitPart s = .next (frameSent s) := by
  refine transmitPart_eq_next.2 (.inr ⟨fun h0 => ?_, hle, rfl⟩)
  rw [h0] at hpos
  exact absurd hpos (by decide)

/-- The delta encoder's part: the pass, and the frame, whose payload is never empty (R161). -/
theorem encodePart_run (s : State) : ∃ t, PassDone s t ∧ encodePart s = .next (frameSent t) := by
  obtain ⟨t, ht, h⟩ := dpassOp_run s
  refine ⟨t, h, ?_⟩
  rw [encodePart, ht]
  exact transmitPart_of_pos h.dlenPos h.dlenLe

/-- The state in which the pass finds the packed frame, after PACK and GUARD. -/
def assembled (cur : Memory) (s : State) : State :=
  { s with cur := cur, oidx := 1024, acc := 0, bitcnt := 0, pos := 0, shapeOk := true }

/-- The frame assembler's part and what follows it: GUARD finds a whole frame. -/
theorem assemblePart_run (s : State) : ∃ cur t, (s.cur.wf = true → PackedInto s cur) ∧ PassDone (assembled cur s) t ∧
    assemblePart s = .next (frameSent t) := by
  obtain ⟨cur, hpack, hcur⟩ := packOp_run s
  obtain ⟨t, ht, hsend⟩ := encodePart_run (assembled cur s)
  refine ⟨cur, t, hcur, ht, ?_⟩
  rw [assemblePart, hpack, andThen_next]
  exact hsend

theorem exec_shot_of_proceeds (f : Bool) {s : State} (hidle : s.phase = .idle)
    (hgo : proceeds s.linkPresent s.keepalive = true) :
    exec (.shot f) s = assemblePart (gateOp (acceptStart f s)) := by
  have hproceed : (gateOp (acceptStart f s)).proceed = true := (gateProceed_eq_proceeds _ _).trans hgo
  exact (if_pos hidle).trans (if_pos hproceed)

/-- The end of such an invocation in one update. -/
theorem frameSent_eq {s : State} (htx : s.tx = []) : frameSent s = { s with
    empty := emptyFlag s.dlen
    tx := frameOf s
    stream := s.stream ++ frameOf s
    txArg := [Config.term]
    outcome := .sent
    done := true
    phase := .idle } := by
  rw [frameSent, sendFrame_eq, emptyChkOp_tx, htx, List.nil_append]
  rfl

/-- SHOT that the gate lets proceed. -/
theorem exec_shot_sent (f : Bool) {s : State} (hidle : s.phase = .idle)
    (hgo : proceeds s.linkPresent s.keepalive = true) : ∃ t, exec (.shot f) s = .next t ∧ ShotSent f s t := by
  obtain ⟨cur, d, hcur, hd, hshot⟩ := assemblePart_run (gateOp (acceptStart f s))
  have hdcur : d.cur = cur := (congrArg State.cur hd.frame).trans rfl
  have htx : d.tx = [] := (congrArg State.tx hd.frame).trans rfl
  have hstream : d.stream = s.stream := (congrArg State.stream hd.frame).trans rfl
  have henv : d.environment = s.environment := (congrArg State.environment hd.frame).trans rfl
  rw [frameSent_eq htx] at hshot
  subst hdcur
  exact ⟨_, (exec_shot_of_proceeds f hidle hgo).trans hshot,
    { phase := rfl
      outcome := rfl
      done := rfl
      cursor := hd.cursor
      keepalive := (congrArg State.keepalive hd.frame).trans rfl
      force := (congrArg State.force hd.frame).trans rfl
      resets := (congrArg State.resets hd.frame).trans rfl
      bitcnt := (congrArg State.bitcnt hd.frame).trans rfl
      environment := henv
      stream := congrArg (· ++ frameOf d) hstream
      packed := fun hwf => ⟨(hcur hwf).wf, (hcur hwf).layout, (hcur hwf).beyond⟩
      prevWf := hd.prevWf
      deltaWf := hd.deltaWf
      prevFrame := hd.prevFrame
      prevBeyond := hd.prevBeyond
      deltaBeyond := hd.deltaBeyond
      dlen := hd.dlen
      payload := hd.payload
      tx := fun hp hdw => congrArg wireBytes (hd.payload hp hdw) }⟩

/-- SHOT that the gate suppresses. -/
theorem exec_shot_suppressed (f : Bool) {s : State} (hidle : s.phase = .idle)
    (hno : proceeds s.linkPresent s.keepalive = false) :
    exec (.shot f) s = .next (exitInvocation .suppressed (gateOp (acceptStart f s))) :=
  exec_shot_of_gateProceed_eq_false f hidle ((gateProceed_eq_proceeds _ _).trans hno)

/-- Settles O32: the record of a SHOT that proceeds, its inputs read from the environment it keeps. -/
theorem shotSendsTheSelectedBlocks : Obligations.ShotSendsTheSelectedBlocks := by
  intro f s hidle hwf hgo
  obtain ⟨hprev, hcur, hdelta, -, -⟩ := (buffersWf_iff s).1 hwf
  obtain ⟨t, ht, h⟩ := exec_shot_sent f hidle hgo
  have henv := h.environment
  have hkeep : t.keepalive = if s.linkPresent then 10 else s.keepalive - 1 := by
    rw [h.keepalive]
    cases hlink : s.linkPresent with
    | true => rfl
    | false =>
      rw [hlink] at hgo
      refine gateKeepalive_unlinked_of_ne_zero fun h0 => ?_
      rw [h0] at hgo
      exact absurd hgo (by decide)
  exact ⟨t, _, ht, rfl, wfPayload_selectedGroups .., (h.packed hcur).layout, h.tx hprev hdelta, h.stream,
    h.payload hprev hdelta, h.prevFrame hprev, fun a ha => ⟨h.prevBeyond hprev a ha, (h.packed hcur).beyond a ha⟩,
    h.deltaBeyond hdelta, h.cursor, hkeep, h.outcome, h.done, h.phase, h.force, congrArg Environment.rst henv,
    congrArg Environment.start henv, congrArg Environment.forcePin henv, congrArg Environment.linkPresent henv,
    congrArg Environment.txReady henv, congrArg Environment.status henv, congrArg Environment.fb henv, h.resets,
    congrArg Environment.stimuli henv, congrArg Environment.bench henv⟩

/-- Settles O35: an invocation proceeds or is suppressed by the gate. -/
theorem everyInvocationEndsSentOrSuppressed : Obligations.EveryInvocationEndsSentOrSuppressed := by
  intro f s hidle
  cases hgo : proceeds s.linkPresent s.keepalive with
  | true =>
    obtain ⟨t, ht, h⟩ := exec_shot_sent f hidle hgo
    have hne : t.outcome ≠ .suppressed := by
      rw [h.outcome]
      decide
    have hgate : ¬ (s.linkPresent = false ∧ s.keepalive.toNat ≤ 1) := by
      rw [← proceeds_eq_false_iff, hgo]
      decide
    exact ⟨t, ht, h.phase, h.done, .inl h.outcome, ⟨fun hs => absurd hs hne, fun hs => absurd hs hgate⟩,
      fun hs => absurd hs hne⟩
  | false =>
    exact ⟨_, exec_shot_suppressed f hidle hgo, rfl, rfl, .inr rfl,
      ⟨fun _ => (proceeds_eq_false_iff _ _).1 hgo, fun _ => rfl⟩, fun _ => rfl⟩

/-- The port `busy` is 0 at PHASE code 0 only (R20, R30). -/
theorem busy_iff_code (s : State) : s.busy = true ↔ s.phase.code.toNat ≠ 0 := by
  rw [busy_eq_true_iff]
  cases s.phase <;> decide

/-- Settles O60: the two tables, the two ports, and `outcome` after each end of an invocation. -/
theorem thePortsShowTheCodesOfOutcomeAndPhase : Obligations.ThePortsShowTheCodesOfOutcomeAndPhase := by
  refine ⟨by decide, by decide, fun s => ⟨rfl, busy_iff_code s⟩, fun f s hidle => ?_⟩
  cases hgo : proceeds s.linkPresent s.keepalive with
  | true =>
    obtain ⟨t, ht, h⟩ := exec_shot_sent f hidle hgo
    refine ⟨t, ht, h.done, (busy_eq_false_iff t).2 h.phase, ?_⟩
    rw [State.outcomePort, h.outcome]
    rfl
  | false => exact ⟨_, exec_shot_suppressed f hidle hgo, rfl, rfl, rfl⟩

/-! The grace without the link (R122) -/

/-- A SHOT that proceeds without the link: one count less and one block further. -/
theorem exec_shot_in_grace (f : Bool) {s : State} (hidle : s.phase = .idle) (hlink : s.linkPresent = false)
    (hk : 2 ≤ s.keepalive.toNat) : ∃ t, exec (.shot f) s = .next t ∧ t.phase = .idle ∧ t.linkPresent = false ∧
      t.keepalive.toNat = s.keepalive.toNat - 1 ∧ t.outcome = .sent ∧ t.cursor = s.cursor + 1 := by
  obtain ⟨t, ht, h⟩ := exec_shot_sent f hidle (by simp [proceeds, hk])
  refine ⟨t, ht, h.phase, (congrArg Environment.linkPresent h.environment).trans hlink, ?_, h.outcome, h.cursor⟩
  rw [h.keepalive, hlink, gateKeepalive_unlinked_toNat]

/-- What holds after `n` of the invocations of the grace that began at `s`. -/
structure InGrace (s : State) (n : Nat) (t : State) : Prop where
  phase : t.phase = .idle
  link : t.linkPresent = false
  keepalive : t.keepalive.toNat = 10 - n
  cursor : t.cursor = s.cursor + BitVec.ofNat 7 n
  outcome : 1 ≤ n → t.outcome = .sent

theorem grace_run (f : Bool) {s : State} (hidle : s.phase = .idle) (hlink : s.linkPresent = false) (hk : s.keepalive = 10)
    {n : Nat} (hn : n ≤ 9) : ∃ t, times n (exec (.shot f)) s = .next t ∧ InGrace s n t := by
  refine times_runs (fun m t hm h => ?_) ⟨hidle, hlink, by rw [hk]; rfl, by simp, fun h => absurd h (by decide)⟩
  have hcount := h.keepalive
  obtain ⟨u, hu, hphase, hulink, hukeep, hout, hcursor⟩ := exec_shot_in_grace f h.phase h.link (by omega)
  refine ⟨u, hu, hphase, hulink, by omega, ?_, fun _ => hout⟩
  rw [hcursor, h.cursor, BitVec.ofNat_add, ← BitVec.add_assoc]
  rfl

/-- What holds after `n` invocations that the gate suppressed, from `u` on. -/
structure GraceOver (u : State) (n : Nat) (t : State) : Prop where
  phase : t.phase = .idle
  link : t.linkPresent = false
  keepalive : t.keepalive.toNat ≤ 1
  cursor : t.cursor = u.cursor
  stream : t.stream = u.stream
  prev : t.prev = u.prev
  suppressed : 1 ≤ n → t.keepalive = 0 ∧ t.outcome = .suppressed

theorem grace_over_run (f : Bool) {u : State} (hidle : u.phase = .idle) (hlink : u.linkPresent = false)
    (hk : u.keepalive.toNat ≤ 1) (n : Nat) : ∃ t, times n (exec (.shot f)) u = .next t ∧ GraceOver u n t := by
  refine times_runs (fun m t _ h => ?_) ⟨hidle, hlink, hk, rfl, rfl, rfl, fun h => absurd h (by decide)⟩
  refine ⟨_, shotWithoutLinkAndGraceIsSuppressed f t h.phase h.link h.keepalive, h.phase, h.link, Nat.zero_le _, h.cursor,
    h.stream, h.prev, fun _ => ⟨rfl, rfl⟩⟩

/-- Settles O12: nine invocations of the grace, then suppressed ones only. -/
theorem nineInvocationsProceedWithoutTheLink : Obligations.NineInvocationsProceedWithoutTheLink := by
  intro f s hidle hlink hk
  constructor
  · intro n hone hnine
    obtain ⟨t, ht, h⟩ := grace_run f hidle hlink hk hnine
    exact ⟨t, ht, h.keepalive, h.outcome hone, h.cursor, h.phase⟩
  · intro n hten
    obtain ⟨u, hu, hgrace⟩ := grace_run f hidle hlink hk (Nat.le_refl 9)
    obtain ⟨t, ht, h⟩ := grace_over_run f hgrace.phase hgrace.link (Nat.le_of_eq hgrace.keepalive) (n - 9)
    obtain ⟨hzero, hout⟩ := h.suppressed (by omega)
    have hsplit : times n (exec (.shot f)) s = .next t := by
      rw [← Nat.add_sub_of_le (show 9 ≤ n by omega), times_add, hu, andThen_next, ht]
    exact ⟨u, t, hu, hsplit, hzero, hout, h.cursor, h.stream, h.prev⟩

end Sys2Proof.Machine
end

section
/-! What invocations do to the display (spec/43_delta_selector.md section 3, spec/95_test_vectors.md section 5): full refresh, no
change, the forced sweep, the receiver's mirror, and the cells through which one invocation depends on those before it. -/

namespace Sys2Proof.Machine

/-! Buffers that agree -/

/-- What a buffer in canonical form lists: the bytes that are not 0. -/
theorem Memory.mem_iff {m : Memory} (h : m.wf = true) (c : Host.Cell) : c ∈ m ↔ m.read c.1 = c.2 ∧ c.2 ≠ 0 := by
  constructor
  · intro hc
    exact ⟨Memory.read_eq_of_mem h hc, ((Memory.wf_iff_pairwise m).1 h).2 c hc⟩
  · rintro ⟨hread, hne⟩
    by_contra hc
    refine hne (hread.symm.trans (Memory.read_of_forall_ne fun d hd heq => hc ?_))
    have hval := Memory.read_eq_of_mem h hd
    rw [heq, hread] at hval
    have hdc : d = c := Prod.ext heq hval.symm
    exact hdc ▸ hd

/-- Buffers in canonical form that read alike are equal. -/
theorem Memory.eq_of_read_eq {m m' : Memory} (h : m.wf = true) (h' : m'.wf = true) (hread : ∀ a, m.read a = m'.read a) :
    m = m' := by
  have hirrefl : Std.Irrefl fun c d : Host.Cell => c.1 < d.1 := ⟨fun c => Nat.lt_irrefl c.1⟩
  have hanti : Std.Antisymm fun c d : Host.Cell => c.1 < d.1 := ⟨fun c d hcd hdc => absurd hcd (Nat.lt_asymm hdc)⟩
  refine List.Pairwise.eq_of_mem_iff ((Memory.wf_iff_pairwise m).1 h).1 ((Memory.wf_iff_pairwise m').1 h').1 fun c => ?_
  rw [Memory.mem_iff h, Memory.mem_iff h', hread]

theorem sameFrame.symm {a b : Memory} (h : sameFrame a b) : sameFrame b a := fun i hi => (h i hi).symm

theorem sameFrame.trans {a b c : Memory} (hab : sameFrame a b) (hbc : sameFrame b c) : sameFrame a c :=
  fun i hi => (hab i hi).trans (hbc i hi)

theorem sameFrame.blkOf {a b : Memory} (h : sameFrame a b) {n : Nat} (hn : n < 128) : blkOf a n = blkOf b n :=
  (blkOf_eq_iff a b n).2 fun _ hk => h _ (by simp only [Config.frameBytes]; omega)

/-- The sources fix the packed frame (R136). -/
theorem packedFrom.unique {s : State} {cur cur' : Memory} (h : packedFrom s cur) (h' : packedFrom s cur') :
    sameFrame cur cur' := by
  intro i hi
  simp only [Config.frameBytes] at hi
  have haddr : i = 128 * (i / 128) + 16 * (i / 16 % 8) + i % 16 := by omega
  refine BitVec.eq_of_getLsbD_eq fun j hj => ?_
  rw [haddr, h _ _ _ j (by omega) (by omega) (by omega) hj, h' _ _ _ j (by omega) (by omega) (by omega) hj]

/-- The packed frame is that of the sources alone. -/
theorem packedFrom.congr {s u : State} {cur : Memory} (hstatus : u.status = s.status) (hfb : u.fb = s.fb)
    (h : packedFrom s cur) : packedFrom u cur := by
  intro R p k j hR hp hk hj
  have hsrc : srcByte u R (8 * k + j) = srcByte s R (8 * k + j) := by
    rw [srcByte, srcByte, hstatus, hfb]
  rw [hsrc]
  exact h R p k j hR hp hk hj

/-- A frame's bytes may be replaced by equal ones. -/
theorem packedFrom.of_sameFrame {s : State} {cur cur' : Memory} (h : packedFrom s cur) (hsame : sameFrame cur' cur) :
    packedFrom s cur' := by
  intro R p k j hR hp hk hj
  rw [hsame _ (by simp only [Config.frameBytes]; omega)]
  exact h R p k j hR hp hk hj

/-! Payloads of one group, and of all -/

theorem selectedGroups_congr {force : Bool} {cursor : BitVec 7} {cur cur' prev : Memory} (h : sameFrame cur cur') :
    selectedGroups force cursor cur prev = selectedGroups force cursor cur' prev := by
  have hsel : ∀ b ∈ List.range 128, selected force cursor cur prev b = selected force cursor cur' prev b := by
    intro b hb
    rw [selected, selected, h.blkOf (List.mem_range.1 hb)]
  rw [selectedGroups, selectedGroups, List.filter_congr hsel]
  refine List.map_congr_left fun b hb => ?_
  rw [h.blkOf (List.mem_range.1 (List.mem_filter.1 hb).1)]

/-- Where no block but the forced one differs, its group is the payload. -/
theorem selectedGroups_of_unchanged {cursor : BitVec 7} {cur prev : Memory}
    (h : ∀ b, b < 128 → b ≠ cursor.toNat → blkOf cur b = blkOf prev b) :
    selectedGroups false cursor cur prev = [⟨cursor.setWidth 8, blkOf cur cursor.toNat⟩] := by
  have hsel : ∀ b ∈ List.range 128, selected false cursor cur prev b = decide (b = cursor.toNat) := by
    intro b hb
    rw [Bool.eq_iff_iff, selected_iff, decide_eq_true_iff]
    have := h b (List.mem_range.1 hb)
    tauto
  have hindex : BitVec.ofNat 8 cursor.toNat = cursor.setWidth 8 := by
    refine BitVec.eq_of_toNat_eq ?_
    rw [BitVec.toNat_ofNat, BitVec.toNat_setWidth]
  rw [selectedGroups, List.filter_congr hsel, List.filter_eq, List.count_eq_one_of_mem List.nodup_range
    (List.mem_range.2 cursor.isLt), List.replicate_one, List.map_singleton, hindex]

/-- The frame of one group (R80). -/
theorem wireBytes_single (i : Byte) {data : List Byte} (h : data.length = 8) :
    wireBytes (payloadBytes [⟨i, data⟩]) = [0xAA, 0x55, 0x02, 0x00, 0x09, i] ++ data ++ [0x0A] := by
  have hbytes : payloadBytes [⟨i, data⟩] = i :: data := by simp [payloadBytes, Group.bytes]
  rw [wireBytes, hbytes, List.length_cons, h]
  rfl

/-- Under full refresh the payload has every block, in order (R152). -/
theorem selectedGroups_refresh (cursor : BitVec 7) (cur prev : Memory) :
    selectedGroups true cursor cur prev = (List.range 128).map fun b => ⟨BitVec.ofNat 8 b, blkOf cur b⟩ := by
  have hall : ∀ b ∈ List.range 128, selected true cursor cur prev b = true := by simp [selected]
  rw [selectedGroups, List.filter_eq_self.2 hall]

/-- Settles O37: the payload of every block, read back from the frame. -/
theorem fullRefreshSendsEveryBlock : Obligations.FullRefreshSendsEveryBlock := by
  intro s hidle hwf hgo
  obtain ⟨hprev, hcur, hdelta, -, -⟩ := (buffersWf_iff s).1 hwf
  obtain ⟨t, ht, h⟩ := exec_shot_sent true hidle hgo
  have hgs := wfPayload_selectedGroups true s.cursor t.cur s.prev
  have htx := h.tx hprev hdelta
  refine ⟨t, _, t.cur, (h.packed hcur).layout, ht, htx ▸ decode_wireBytes hgs, ?_, ?_, h.prevFrame hprev, h.cursor⟩
  · rw [selectedGroups_refresh, List.map_map]
    refine (List.map_congr_left fun b hb => ?_).trans (List.map_id _)
    have hlt := List.mem_range.1 hb
    simp only [Function.comp_apply, BitVec.toNat_ofNat, id]
    omega
  · obtain ⟨-, -, hgroups, -⟩ := (wfPayload_iff _).1 hgs
    rw [htx, wireBytes_length, payloadBytes_length hgroups, selectedGroups_refresh, List.length_map, List.length_range]

/-! An unchanged display -/

/-- An invocation whose frame is PREV's already: the forced block alone is sent, and PREV reads as before. -/
theorem ShotSent.unchanged {s t : State} (h : ShotSent false s t) (hwf : s.buffersWf = true) (hsame : packedFrom s s.prev) :
    t.tx = [0xAA, 0x55, 0x02, 0x00, 0x09, s.cursor.setWidth 8] ++ blkOf s.prev s.cursor.toNat ++ [0x0A] ∧
      ∀ a, t.prev.read a = s.prev.read a := by
  obtain ⟨hprev, hcur, hdelta, -, -⟩ := (buffersWf_iff s).1 hwf
  have hframe : sameFrame t.cur s.prev := (h.packed hcur).layout.unique hsame
  have hgroups := selectedGroups_of_unchanged (cursor := s.cursor) fun b hb _ => hframe.blkOf hb
  constructor
  · rw [h.tx hprev hdelta, hgroups, wireBytes_single _ (blkOf_length ..), hframe.blkOf s.cursor.isLt]
  · intro a
    by_cases ha : a < 1024
    · exact ((h.prevFrame hprev).trans hframe) a ha
    · exact h.prevBeyond hprev a (Nat.not_lt.1 ha)

/-- Settles O38. -/
theorem anUnchangedDisplaySendsTheForcedBlockOnly : Obligations.AnUnchangedDisplaySendsTheForcedBlockOnly := by
  intro s hidle hwf hgo hsame
  obtain ⟨t, ht, h⟩ := exec_shot_sent false hidle hgo
  obtain ⟨htx, hprev⟩ := h.unchanged hwf hsame
  exact ⟨t, ht, htx, hprev, h.cursor⟩

/-- The buffers stay in canonical form over an invocation that proceeds. -/
theorem ShotSent.buffersWf {f : Bool} {s t : State} (h : ShotSent f s t) (hwf : s.buffersWf = true) : t.buffersWf = true := by
  obtain ⟨hprev, hcur, hdelta, hstatus, hfb⟩ := (buffersWf_iff s).1 hwf
  have htstatus : t.status = s.status := congrArg Environment.status h.environment
  have htfb : t.fb = s.fb := congrArg Environment.fb h.environment
  exact (buffersWf_iff t).2 ⟨h.prevWf hprev, (h.packed hcur).wf, h.deltaWf hdelta, htstatus ▸ hstatus, htfb ▸ hfb⟩

/-- The bytes the `k`-th invocation of a sweep sends, from cursor `c` and the frame `prev`. -/
def sweepFrame (c : BitVec 7) (prev : Memory) (k : Nat) : List Byte :=
  [0xAA, 0x55, 0x02, 0x00, 0x09, BitVec.ofNat 8 ((c.toNat + k) % 128)] ++ blkOf prev ((c.toNat + k) % 128) ++ [0x0A]

/-- What holds after `n` invocations without real changes, from `s` on. -/
structure Swept (s : State) (n : Nat) (t : State) : Prop where
  phase : t.phase = .idle
  link : t.linkPresent = true
  buffers : t.buffersWf = true
  status : t.status = s.status
  fb : t.fb = s.fb
  cursor : t.cursor = s.cursor + BitVec.ofNat 7 n
  prev : ∀ a, t.prev.read a = s.prev.read a
  stream : t.stream = s.stream ++ (List.range n).flatMap (sweepFrame s.cursor s.prev)

/-- The cursor after `n` steps, as a number. -/
theorem cursor_add_toNat (c : BitVec 7) (n : Nat) : (c + BitVec.ofNat 7 n).toNat = (c.toNat + n) % 128 := by
  rw [BitVec.toNat_add, BitVec.toNat_ofNat]
  omega

theorem sweep_run {s : State} (hidle : s.phase = .idle) (hwf : s.buffersWf = true) (hlink : s.linkPresent = true)
    (hsame : packedFrom s s.prev) (n : Nat) : ∃ t, times n (exec (.shot false)) s = .next t ∧ Swept s n t := by
  refine times_runs (fun k t _ h => ?_)
    ⟨hidle, hlink, hwf, rfl, rfl, by simp, fun _ => rfl, by simp⟩
  obtain ⟨u, hu, hsent⟩ := exec_shot_sent false h.phase (by rw [h.link]; rfl)
  have hprev : sameFrame t.prev s.prev := fun a _ => h.prev a
  have hpacked : packedFrom t t.prev := (hsame.of_sameFrame hprev).congr h.status h.fb
  obtain ⟨htx, huprev⟩ := hsent.unchanged h.buffers hpacked
  have hcur : t.cursor.toNat = (s.cursor.toNat + k) % 128 := by rw [h.cursor, cursor_add_toNat]
  have hframe : u.tx = sweepFrame s.cursor s.prev k := by
    have hindex : t.cursor.setWidth 8 = BitVec.ofNat 8 ((s.cursor.toNat + k) % 128) := by
      refine BitVec.eq_of_toNat_eq ?_
      rw [BitVec.toNat_setWidth, BitVec.toNat_ofNat, hcur]
    rw [htx, sweepFrame, hindex, hprev.blkOf t.cursor.isLt, hcur]
  refine ⟨u, hu, hsent.phase, (congrArg Environment.linkPresent hsent.environment).trans h.link, hsent.buffersWf h.buffers,
    (congrArg Environment.status hsent.environment).trans h.status,
    (congrArg Environment.fb hsent.environment).trans h.fb, ?_, fun a => (huprev a).trans (h.prev a), ?_⟩
  · rw [hsent.cursor, h.cursor, BitVec.ofNat_add, ← BitVec.add_assoc]
    rfl
  · rw [hsent.stream, h.stream, hframe, List.range_succ, List.flatMap_append, List.flatMap_singleton, List.append_assoc]

/-- Settles O39: the sweep, and the count of its forced blocks over 128 invocations. -/
theorem theForcedSweepCoversEveryBlock : Obligations.TheForcedSweepCoversEveryBlock := by
  intro n s hidle hwf hlink hsame
  obtain ⟨t, ht, h⟩ := sweep_run hidle hwf hlink hsame n
  refine ⟨t, ht, h.cursor, h.prev, h.stream, fun hn => ⟨?_, fun b hb => ?_⟩⟩
  · refine BitVec.eq_of_toNat_eq ?_
    have := s.cursor.isLt
    rw [h.cursor, cursor_add_toNat, hn]
    omega
  · have := s.cursor.isLt
    exact ⟨(b + 128 - s.cursor.toNat) % 128, ⟨by omega, by omega⟩, fun k' hk' hb' => by omega⟩

/-! The document's example (R175) -/

/-- A packed frame is blank in every block in which the sources have no pixel. -/
theorem packedFrom.blkOf_eq_zero {s : State} {cur zero : Memory} (h : packedFrom s cur) (hzero : ∀ a, zero.read a = 0) {b : Nat}
    (hb : b < 128)
    (hblank : ∀ R c p, R < 8 → c < 128 → p < 8 → 16 * R + 2 * p + c / 64 = b → (srcByte s R c).getLsbD p = false) :
    blkOf cur b = blkOf zero b := by
  refine (blkOf_eq_iff _ _ _).2 fun m hm => ?_
  have haddr : 8 * b + m = 128 * (b / 16) + 16 * (b / 2 % 8) + (8 * (b % 2) + m) := by omega
  rw [hzero]
  refine BitVec.eq_of_getLsbD_eq fun j hj => ?_
  rw [haddr, h _ _ _ j (by omega) (by omega) (by omega) hj, hblank _ _ _ (by omega) (by omega) (by omega) (by omega)]
  simp

/-- Settles O36: the forced block 5 is the only one that can have changed. -/
theorem theDocumentsEndToEndExample : Obligations.TheDocumentsEndToEndExample := by
  intro s hidle hwf hlink hcursor hzero hpixels
  obtain ⟨hprev, hcur, hdelta, -, -⟩ := (buffersWf_iff s).1 hwf
  obtain ⟨t, ht, h⟩ := exec_shot_sent false hidle (by rw [hlink]; rfl)
  have hpacked := (h.packed hcur).layout
  have hgroups : selectedGroups false s.cursor t.cur s.prev = [⟨5, blkOf t.cur 5⟩] := by
    rw [hcursor]
    refine selectedGroups_of_unchanged fun b hb hne => ?_
    refine hpacked.blkOf_eq_zero hzero hb fun R c p hR hc hp hblock => ?_
    rw [← Bool.not_eq_true]
    intro hpixel
    exact hne (hblock.symm.trans (hpixels R c p hR hc hp hpixel))
  have hdlen := h.dlen hprev
  rw [hgroups] at hdlen
  refine ⟨t, t.cur, hpacked, ht, BitVec.eq_of_toNat_eq hdlen, ?_, fun m hm => h.prevFrame hprev _ ?_, ?_, h.outcome⟩
  · rw [h.tx hprev hdelta, hgroups, wireBytes_single _ (blkOf_length ..)]
    rfl
  · simp only [Config.frameBytes]
    omega
  · rw [h.cursor, hcursor]
    rfl

/-! What an invocation depends on (R106, R23) -/

/-- Settles O42: the packed frame is the sources', the groups are those of the frame, CURSOR and PREV, and PREV reads alike. -/
theorem invocationsDependOnThePersistentCellsOnly : Obligations.InvocationsDependOnThePersistentCellsOnly := by
  intro f s u hsidle huidle hswf huwf hprev hcursor hkeep hlink hstatus hfb
  obtain ⟨hsprev, hscur, hsdelta, -, -⟩ := (buffersWf_iff s).1 hswf
  obtain ⟨huprev, hucur, hudelta, -, -⟩ := (buffersWf_iff u).1 huwf
  cases hgo : proceeds s.linkPresent s.keepalive with
  | true =>
    obtain ⟨t, ht, h⟩ := exec_shot_sent f hsidle hgo
    obtain ⟨v, hv, h'⟩ := exec_shot_sent f huidle (by rw [← hlink, ← hkeep, hgo])
    have hframe : sameFrame t.cur v.cur :=
      (h.packed hscur).layout.unique ((h'.packed hucur).layout.congr hstatus hfb)
    refine ⟨t, v, ht, hv, ?_, h.outcome.trans h'.outcome.symm, ?_, ?_, ?_⟩
    · rw [h.tx hsprev hsdelta, h'.tx huprev hudelta, ← hcursor, ← hprev, selectedGroups_congr hframe]
    · refine Memory.eq_of_read_eq (h.prevWf hsprev) (h'.prevWf huprev) fun a => ?_
      by_cases ha : a < 1024
      · exact (((h.prevFrame hsprev).trans hframe).trans (h'.prevFrame huprev).symm) a ha
      · rw [h.prevBeyond hsprev a (Nat.not_lt.1 ha), h'.prevBeyond huprev a (Nat.not_lt.1 ha), hprev]
    · rw [h.cursor, h'.cursor, hcursor]
    · rw [h.keepalive, h'.keepalive, hlink, hkeep]
  | false =>
    refine ⟨_, _, exec_shot_suppressed f hsidle hgo, exec_shot_suppressed f huidle (by rw [← hlink, ← hkeep, hgo]), rfl, rfl,
      hprev, hcursor, ?_⟩
    simp only [exitInvocation_keepalive, gateOp_keepalive, acceptStart_linkPresent, acceptStart_keepalive, hlink, hkeep]

/-! Invocations one after another (R60) -/

/-- The block waits for an invocation, and its own buffers are in canonical form. -/
structure Waiting (s : State) : Prop where
  phase : s.phase = .idle
  prevWf : s.prev.wf = true
  curWf : s.cur.wf = true
  deltaWf : s.delta.wf = true

theorem waiting_of_buffersWf {s : State} (hidle : s.phase = .idle) (hwf : s.buffersWf = true) : Waiting s := by
  obtain ⟨hprev, hcur, hdelta, -, -⟩ := (buffersWf_iff s).1 hwf
  exact ⟨hidle, hprev, hcur, hdelta⟩

/-- The state in which an invocation finds the inputs the environment gives it. -/
def State.withInputs (s : State) (v : Invocation) : State :=
  { s with linkPresent := v.link, status := v.status, fb := v.fb }

theorem Waiting.withInputs {s : State} (h : Waiting s) (v : Invocation) : Waiting (s.withInputs v) :=
  ⟨h.phase, h.prevWf, h.curWf, h.deltaWf⟩

/-- An invocation that reaches the pass. -/
theorem invoke_sent {v : Invocation} {s : State} (h : Waiting s) (hgo : proceeds v.link s.keepalive = true) :
    ∃ t, invoke v s = .next t ∧ Waiting t ∧ ShotSent v.force (s.withInputs v) t := by
  obtain ⟨t, ht, hsent⟩ := exec_shot_sent v.force (h.withInputs v).phase hgo
  exact ⟨t, ht, ⟨hsent.phase, hsent.prevWf h.prevWf, (hsent.packed h.curWf).wf, hsent.deltaWf h.deltaWf⟩, hsent⟩

/-- An invocation that the gate suppresses. -/
theorem invoke_suppressed {v : Invocation} {s : State} (h : Waiting s) (hno : proceeds v.link s.keepalive = false) :
    ∃ t, invoke v s = .next t ∧ Waiting t ∧ t.keepalive = gateKeepalive v.link s.keepalive ∧ t.cursor = s.cursor ∧
      t.prev = s.prev ∧ t.tx = [] ∧ t.status = v.status ∧ t.fb = v.fb :=
  ⟨_, exec_shot_suppressed v.force (h.withInputs v).phase hno, ⟨rfl, h.prevWf, h.curWf, h.deltaWf⟩, rfl, rfl, rfl, rfl, rfl,
    rfl⟩

/-! The staleness bound (R165) -/

/-- Some invocation of the sequence sends block `b`. -/
def SendsBlock (b : Nat) (vs : List Invocation) (s : State) : Prop :=
  ∃ k u t gs, k < vs.length ∧ invocations (vs.take k) s = .next u ∧ invocations (vs.take (k + 1)) s = .next t ∧
    decode .wire t.tx = .ok (.wire gs) ∧ ∃ g ∈ gs, g.index.toNat = b

/-- What a later invocation sends, the whole sequence sends. -/
theorem SendsBlock.cons {b : Nat} {v : Invocation} {vs : List Invocation} {s t : State} (hv : invoke v s = .next t)
    (h : SendsBlock b vs t) : SendsBlock b (v :: vs) s := by
  obtain ⟨k, u, w, gs, hk, hu, hw, hdec, hmem⟩ := h
  refine ⟨k + 1, u, w, gs, Nat.succ_lt_succ hk, ?_, ?_, hdec, hmem⟩
  · rw [List.take_succ_cons, invocations, hv, andThen_next, hu]
  · rw [List.take_succ_cons, invocations, hv, andThen_next, hw]

/-- An invocation that reaches the pass sends the block at the cursor. -/
theorem sendsBlock_head {v : Invocation} {vs : List Invocation} {s t : State} (h : Waiting s) (hv : invoke v s = .next t)
    (hsent : ShotSent v.force (s.withInputs v) t) : SendsBlock s.cursor.toNat (v :: vs) s := by
  have hgs := wfPayload_selectedGroups v.force s.cursor t.cur s.prev
  refine ⟨0, s, t, _, Nat.succ_pos _, rfl, ?_, hsent.tx h.prevWf h.deltaWf ▸ decode_wireBytes hgs,
    _, forcedGroup_mem .., ?_⟩
  · have hone : invocations ((v :: vs).take 1) s = andThen (invoke v s) fun t => .next t := rfl
    rw [zero_add, hone, hv, andThen_next]
  · have := s.cursor.isLt
    simp only [BitVec.toNat_ofNat]
    omega

/-- The block `d` steps ahead of the cursor is sent where more than `d` invocations reach the pass. -/
theorem sendsBlock_of_passes {b : Nat} (hb : b < 128) {vs : List Invocation} {s : State} (h : Waiting s)
    (hpass : (b + 128 - s.cursor.toNat) % 128 < passes vs s.keepalive) : SendsBlock b vs s := by
  induction vs generalizing s with
  | nil => simp [passes] at hpass
  | cons v vs ih =>
    rw [passes] at hpass
    cases hgo : proceeds v.link s.keepalive with
    | true =>
      obtain ⟨t, ht, hwait, hsent⟩ := invoke_sent h hgo
      by_cases hat : s.cursor.toNat = b
      · exact hat ▸ sendsBlock_head h ht hsent
      · refine (ih hwait ?_).cons ht
        have hcur : t.cursor.toNat = (s.cursor.toNat + 1) % 128 := by
          rw [hsent.cursor]
          exact cursor_succ_toNat s.cursor
        have hkeep : t.keepalive = gateKeepalive v.link s.keepalive := hsent.keepalive
        have := s.cursor.isLt
        rw [hgo, if_pos rfl] at hpass
        rw [hcur, hkeep]
        omega
    | false =>
      obtain ⟨t, ht, hwait, hkeep, hcursor, -⟩ := invoke_suppressed h hgo
      refine (ih hwait ?_).cons ht
      rw [hgo, if_neg Bool.false_ne_true, Nat.zero_add] at hpass
      rwa [hcursor, hkeep]

/-- Settles O40: every block is at most 127 steps ahead of the cursor. -/
theorem everyBlockIsSentWithinAnyHundredTwentyEightInvocations :
    Obligations.EveryBlockIsSentWithinAnyHundredTwentyEightInvocations := by
  intro vs s hidle hwf hpass b hb
  exact sendsBlock_of_passes hb (waiting_of_buffersWf hidle hwf) (Nat.lt_of_lt_of_le (Nat.mod_lt _ (by decide)) hpass)

/-! The receiver's mirror (spec/95_test_vectors.md section 5) -/

theorem mirrorApply_append (m : Memory) (gs hs : List Group) :
    mirrorApply m (gs ++ hs) = mirrorApply (mirrorApply m gs) hs := List.foldl_append

theorem mirrorApply_single (m : Memory) {n : Nat} (hn : n < 256) (data : List Byte) :
    mirrorApply m [⟨BitVec.ofNat 8 n, data⟩] = m.writeBytes (8 * n) data := by
  have hone (g : Group) : mirrorApply m [g] = m.writeBytes (8 * g.index.toNat) g.data := rfl
  rw [hone, BitVec.toNat_ofNat, Nat.mod_eq_of_lt hn]

/-- A mirror that held PREV's frame holds, after the groups of the blocks below `n`, CUR's bytes in them. -/
theorem mirrorApply_groupsBelow {m prev : Memory} (hm : m.wf = true) (hsame : sameFrame m prev) (force : Bool)
    (cursor : BitVec 7) (cur : Memory) {n : Nat} (hn : n ≤ 128) :
    (mirrorApply m (groupsBelow n force cursor cur prev)).wf = true ∧
      ∀ a, a < 1024 → (mirrorApply m (groupsBelow n force cursor cur prev)).read a =
        if a < 8 * n then cur.read a else prev.read a := by
  induction n with
  | zero => exact ⟨hm, hsame⟩
  | succ n ih =>
    obtain ⟨hwf, hread⟩ := ih (by omega)
    cases hsel : selected force cursor cur prev n with
    | true =>
      rw [groupsBelow_succ_of_selected hsel, mirrorApply_append, mirrorApply_single _ (by omega)]
      refine ⟨Memory.writeBytes_wf _ _ hwf, fun a ha => ?_⟩
      rw [read_writeBytes_blkOf hwf, hread a ha]
      exact ite_block_written ..
    | false =>
      rw [groupsBelow_succ_of_not_selected hsel]
      exact ⟨hwf, fun a ha => (hread a ha).trans (ite_block_same (blkOf_eq_of_not_selected hsel) a)⟩

theorem mirrorReceive_nothing (m : Memory) : mirrorReceive m [] = m := rfl

theorem mirrorReceive_frame (m : Memory) {gs : List Group} (hgs : wfPayload gs = true) :
    mirrorReceive m (wireBytes (payloadBytes gs)) = mirrorApply m gs := by
  rw [mirrorReceive, decode_wireBytes hgs]

/-- Settles O41: the frame of an invocation that proceeds brings the mirror to CUR's frame, which is PREV's then; a suppressed one
sends nothing and leaves PREV. -/
theorem aReceiversMirrorFollowsPrev : Obligations.AReceiversMirrorFollowsPrev := by
  intro v s m hidle hwf hm hsame
  have hwait := waiting_of_buffersWf hidle hwf
  cases hgo : proceeds v.link s.keepalive with
  | true =>
    obtain ⟨t, ht, hnext, hsent⟩ := invoke_sent hwait hgo
    have htx : t.tx = wireBytes (payloadBytes (selectedGroups v.force s.cursor t.cur s.prev)) :=
      hsent.tx hwait.prevWf hwait.deltaWf
    obtain ⟨hmwf, hmread⟩ := mirrorApply_groupsBelow hm hsame v.force s.cursor t.cur (Nat.le_refl 128)
    rw [groupsBelow_all] at hmwf hmread
    have hmirror := mirrorReceive_frame m (wfPayload_selectedGroups v.force s.cursor t.cur s.prev)
    rw [← htx] at hmirror
    refine ⟨t, ht, hnext.phase, hmirror ▸ hmwf, fun a ha => ?_, fun hstatus hfb => ?_⟩
    · rw [hmirror, hmread a ha, if_pos ha]
      exact (hsent.prevFrame hwait.prevWf a ha).symm
    · exact hsent.buffersWf ((buffersWf_iff _).2 ⟨hwait.prevWf, hwait.curWf, hwait.deltaWf, hstatus, hfb⟩)
  | false =>
    obtain ⟨t, ht, hnext, -, -, hprev, htx, htstatus, htfb⟩ := invoke_suppressed hwait hgo
    refine ⟨t, ht, hnext.phase, ?_, ?_, fun hstatus hfb => ?_⟩
    · rwa [htx, mirrorReceive_nothing]
    · rwa [htx, mirrorReceive_nothing, hprev]
    · exact (buffersWf_iff t).2 ⟨hnext.prevWf, hnext.curWf, hnext.deltaWf, htstatus ▸ hstatus, htfb ▸ hfb⟩

end Sys2Proof.Machine
end

section
/-! What every operation and every step keeps. Each operation is composed of a few updates of the state (spec/42 to 44), so a
property that these updates keep is kept by all of them: the canonical form of the buffers, the ranges of the registers, and
what was handed to the transport. -/

namespace Sys2Proof.Machine

/-! The updates that the operations are composed of -/

/-- Wherever the operation answers a next state, `P` holds of it if it held before. -/
def Keeps (P : State → Prop) (op : State → Res) : Prop := ∀ ⦃s t : State⦄, P s → op s = .next t → P t

theorem Keeps.andThen {P : State → Prop} {f g : State → Res} (hf : Keeps P f) (hg : Keeps P g) :
    Keeps P fun s => andThen (f s) g := by
  intro s t hs h
  obtain ⟨u, hu, ht⟩ := andThen_eq_next.1 h
  exact hg (hf hs hu) ht

theorem Keeps.times {P : State → Prop} {f : State → Res} (hf : Keeps P f) (n : Nat) : Keeps P (times n f) :=
  fun _ _ hs h => times_keeps (fun _ _ => @hf _ _) hs h

/-- `P` is kept by each update that an operation or a move of the sequencer makes, under the guard it is made under. -/
structure KeptByUpdates (P : State → Prop) : Prop where
  acceptStart : ∀ f s, P s → P (acceptStart f s)
  exitInvocation : ∀ c s, P s → P (exitInvocation c s)
  reset : ∀ s, P s → P (resetOp s)
  gate : ∀ s, P s → P (gateOp s)
  packInit : ∀ s, P s → P (packInit s)
  pos : ∀ p s, P s → P { s with pos := p }
  placeBit : ∀ s, P s → P (placeBit s)
  writeCur : ∀ v s, s.oidx.toNat < 1024 → P s → P { s with cur := s.cur.write s.oidx.toNat v, oidx := s.oidx + 1 }
  clearAcc : ∀ s, P s → P { s with acc := 0, bitcnt := 0 }
  guard : ∀ s, P s → P (guardOp s)
  changed : ∀ c s, P s → P { s with changed := c }
  sel : ∀ s, P s → P (selOp s)
  emit : ∀ b data s, b < 128 → data.length = 8 → s.dlen.toNat + 9 ≤ 1152 → P s → P { s with
    delta := s.delta.writeBytes s.dlen.toNat (BitVec.ofNat 8 b :: data)
    dlen := s.dlen + 9
    prev := s.prev.writeBytes (8 * b) data }
  nextBlock : ∀ s, s.blk.toNat < 128 → P s → P { s with blk := s.blk + 1 }
  passInit : ∀ s, P s → P (passInit s)
  advance : ∀ s, P s → P (advanceOp s)
  emptyChk : ∀ s, P s → P (emptyChkOp s)
  txArg : ∀ bs s, P s → P { s with txArg := bs }
  tx : ∀ s, P s → P (txOp s)
  phase : ∀ p s, P s → P { s with phase := p }
  done : ∀ s, P s → P { s with done := false }

namespace KeptByUpdates

variable {P : State → Prop} (h : KeptByUpdates P)
include h

/-! The packer -/

theorem flushOp : Keeps P flushOp := by
  intro s t hs hst
  obtain ⟨ho, rfl⟩ := flushOp_eq_next.1 hst
  exact h.clearAcc _ (h.writeCur s.acc s ho hs)

theorem packBitOp : Keeps P packBitOp := by
  intro s t hs hst
  obtain ⟨-, rfl⟩ | ⟨-, ho, rfl⟩ := packBitOp_eq_next.1 hst
  · exact h.placeBit s hs
  · exact h.clearAcc _ (h.writeCur _ s ho hs)

theorem visitOp : Keeps P visitOp := by
  intro s t hs hst
  obtain ⟨u, hu, rfl⟩ := visitOp_eq_next.1 hst
  exact h.pos _ u (h.packBitOp hs hu)

theorem packRowOp : Keeps P packRowOp := fun s _ hs hst => h.visitOp.times 1024 (h.pos _ s hs) hst

theorem pflushOp : Keeps P pflushOp := by
  intro s t hs hst
  obtain ⟨-, rfl⟩ | ⟨-, ho, rfl⟩ := pflushOp_eq_next.1 hst
  · exact hs
  · exact h.writeCur _ s ho hs

theorem packOp : Keeps P packOp := by
  intro s t hs hst
  obtain ⟨u, hu, ht⟩ := packOp_eq_next.1 hst
  exact h.pflushOp (h.packRowOp.times 8 (h.packInit s hs) hu) ht

/-! The selector -/

theorem cmp8Op : Keeps P cmp8Op := by
  intro s t hs hst
  obtain ⟨-, rfl⟩ := cmp8Op_eq_next.1 hst
  exact h.changed _ s hs

theorem emitGroupOp {b : Nat} {data : List Byte} (hdata : data.length = 8) : Keeps P (emitGroupOp b data) := by
  intro s t hs hst
  obtain ⟨hb, hroom, rfl⟩ := emitGroupOp_eq_next.1 hst
  exact h.emit b data s hb hdata hroom hs

theorem emitBlkOp : Keeps P emitBlkOp := fun _ _ hs hst => h.emitGroupOp (blkOf_length ..) hs hst

theorem blockOp : Keeps P blockOp := by
  intro s t hs hst
  obtain ⟨u, v, hu, hv, rfl⟩ := blockOp_eq_next.1 hst
  have hsel : P (selOp u) := h.sel u (h.cmp8Op hs hu)
  obtain ⟨hb, rfl⟩ := cmp8Op_eq_next.1 hu
  obtain ⟨-, hemit⟩ | ⟨-, rfl⟩ := hv
  · have hemitted : P v := h.emitBlkOp hsel hemit
    obtain ⟨-, -, rfl⟩ := emitGroupOp_eq_next.1 hemit
    exact h.nextBlock _ hb hemitted
  · exact h.nextBlock _ hb hsel

theorem dpassOp : Keeps P dpassOp := by
  intro s t hs hst
  obtain ⟨u, hu, rfl⟩ := dpassOp_eq_next.1 hst
  exact h.advance u (h.blockOp.times 128 (h.passInit s hs) hu)

/-! The framer and SHOT -/

theorem txBytes (bs : List Byte) {s : State} (hs : P s) : P (txBytes bs s) := h.tx _ (h.txArg bs s hs)

theorem sendFrame (payload : List Byte) {s : State} (hs : P s) : P (sendFrame payload s) :=
  h.txBytes _ (h.txBytes _ (h.txBytes _ (h.txBytes _ (h.txBytes _ hs))))

theorem frameOp : Keeps P frameOp := by
  intro s t hs hst
  obtain ⟨-, rfl⟩ := frameOp_eq_next.1 hst
  exact h.sendFrame _ hs

theorem transmitPart : Keeps P transmitPart := by
  intro s t hs hst
  obtain ⟨-, rfl⟩ | ⟨-, -, rfl⟩ := transmitPart_eq_next.1 hst
  · exact h.exitInvocation _ _ (h.emptyChk s hs)
  · exact h.exitInvocation _ _ (h.sendFrame _ (h.emptyChk s hs))

theorem encodePart : Keeps P encodePart := h.dpassOp.andThen h.transmitPart

theorem assemblePart : Keeps P assemblePart := by
  refine h.packOp.andThen fun s t hs hst => ?_
  split at hst
  · exact h.encodePart (h.guard s hs) hst
  · cases hst
    exact h.exitInvocation _ _ (h.guard s hs)

theorem shotOp (f : Bool) : Keeps P (shotOp f) := by
  intro s t hs hst
  unfold Machine.shotOp gatePart at hst
  split_ifs at hst
  · exact h.assemblePart (h.gate _ (h.acceptStart f s hs)) hst
  · cases hst
    exact h.exitInvocation _ _ (h.gate _ (h.acceptStart f s hs))
  · cases hst
    exact hs

/-! All operations, and all moves of the sequencer -/

theorem execGroup (g : Group) : Keeps P (execGroup g) := by
  intro s t hs hst
  unfold Machine.execGroup at hst
  split at hst
  · rename_i hg
    exact h.emitGroupOp ((Group.wf_iff g).1 hg).2 hs hst
  · cases hst

theorem execWire (gs : List Group) : Keeps P (execWire gs) := by
  intro s t hs hst
  unfold Machine.execWire at hst
  split at hst <;> cases hst
  exact h.sendFrame _ hs

theorem exec (i : Instr) : Keeps P (exec i) := by
  intro s t hs hst
  cases i with
  | shot f => exact h.shotOp f hs hst
  | reset => cases hst; exact h.reset s hs
  | gate => cases hst; exact h.gate s hs
  | pack => exact h.packOp hs hst
  | packrow => exact h.packRowOp hs hst
  | packbit => exact h.packBitOp hs hst
  | flush => exact h.flushOp hs hst
  | pflush => exact h.pflushOp hs hst
  | guard => cases hst; exact h.guard s hs
  | dpass => exact h.dpassOp hs hst
  | cmp8 => exact h.cmp8Op hs hst
  | sel => cases hst; exact h.sel s hs
  | emitblk => exact h.emitBlkOp hs hst
  | advance => cases hst; exact h.advance s hs
  | emptychk => cases hst; exact h.emptyChk s hs
  | frame => exact h.frameOp hs hst
  | tx => cases hst; exact h.tx s hs
  | group g => exact h.execGroup g hs hst
  | wire gs => exact h.execWire gs hs hst

theorem idleMove {s : State} (hs : P s) : P (idleMove s) := by
  unfold Machine.idleMove
  split
  · exact h.acceptStart _ s hs
  · exact h.done s hs

theorem gateMove {s : State} (hs : P s) : P (gateMove s) := by
  unfold Machine.gateMove
  split
  · exact h.phase _ _ (h.packInit _ (h.gate s hs))
  · exact h.exitInvocation _ _ (h.gate s hs)

theorem packMove : Keeps P packMove := by
  refine h.visitOp.andThen fun s t hs hst => ?_
  split at hst
  · obtain ⟨u, hu, ht⟩ := andThen_eq_next.1 hst
    cases ht
    exact h.phase _ u (h.pflushOp hs hu)
  · cases hst
    exact hs

theorem guardMove {s : State} (hs : P s) : P (guardMove s) := by
  unfold Machine.guardMove
  split
  · exact h.phase _ _ (h.passInit _ (h.guard s hs))
  · exact h.exitInvocation _ _ (h.guard s hs)

theorem deltaMove : Keeps P deltaMove := by
  refine h.blockOp.andThen fun s t hs hst => ?_
  split at hst <;> cases hst
  · exact h.phase _ _ (h.advance s hs)
  · exact hs

theorem sendMove {s : State} (hs : P s) : P (sendMove s) := by
  unfold Machine.sendMove
  split
  · exact h.exitInvocation _ s hs
  · split_ifs
    · exact h.exitInvocation _ _ (h.txBytes _ hs)
    · exact h.txBytes _ hs
    · exact hs

theorem frameMove : Keeps P frameMove := by
  intro s t hs hst
  unfold Machine.frameMove at hst
  split_ifs at hst <;> cases hst
  · exact h.exitInvocation _ _ (h.emptyChk s hs)
  · exact h.sendMove (h.emptyChk s hs)
  · exact h.sendMove hs

theorem phaseMove : Keeps P phaseMove := by
  intro s t hs hst
  unfold Machine.phaseMove at hst
  split at hst
  · cases hst
    exact h.idleMove hs
  · cases hst
    exact h.gateMove hs
  · exact h.packMove hs hst
  · cases hst
    exact h.guardMove hs
  · exact h.deltaMove hs hst
  · exact h.frameMove hs hst

theorem unlessReset {k : State → Res} (hk : Keeps P k) : Keeps P (unlessReset k) := by
  intro s t hs hst
  obtain ⟨-, rfl⟩ | ⟨-, hmove⟩ := unlessReset_eq_next.1 hst
  · exact h.reset s hs
  · exact hk hs hmove

theorem tick : Keeps P tick := h.unlessReset h.phaseMove

end KeptByUpdates

/-- `P` is kept by what the environment does to the inputs, and by the taking of a stimulus or of the bench's operation. -/
structure KeptByInputs (P : State → Prop) : Prop where
  stimuli : ∀ l s, P s → P { s with stimuli := l }
  bench : ∀ s, P s → P { s with bench := none }
  pins : ∀ r st f l rd s, P s → P { s with rst := r, start := st, forcePin := f, linkPresent := l, txReady := rd }
  link : ∀ l s, P s → P { s with linkPresent := l }
  srcZero : ∀ s, P s → P { s with status := [], fb := [] }
  srcByte : ∀ row col v, Keeps P (setSrcByte row col v)
  srcRow : ∀ row v, Keeps P (setSrcRow row v)

theorem stimulate_keeps {P : State → Prop} (h : KeptByUpdates P) (hin : KeptByInputs P) (st : Stimulus) :
    Keeps P (stimulate st) := by
  intro s t hs hst
  cases st with
  | command f => exact h.unlessReset (h.exec (.shot f)) hs hst
  | reset => exact h.exec .reset hs hst
  | pins r st f l rd => exact h.tick (hin.pins r st f l rd s hs) hst
  | link l => cases hst; exact hin.link l s hs
  | srcZero =>
    obtain ⟨-, rfl⟩ := setSources_eq_next.1 hst
    exact hin.srcZero s hs
  | srcByte row col v => exact hin.srcByte row col v hs hst
  | srcRow row v => exact hin.srcRow row v hs hst

/-- What the updates and the environment keep, every step keeps. -/
theorem step_keeps {P : State → Prop} (h : KeptByUpdates P) (hin : KeptByInputs P) : Keeps P step := by
  intro s t hs hst
  cases hb : s.bench with
  | none =>
    rw [step_of_empty_bench hb] at hst
    cases hl : s.stimuli with
    | nil =>
      rw [blockStep_nil hl] at hst
      exact h.tick hs hst
    | cons st rest =>
      rw [blockStep_cons hl] at hst
      exact stimulate_keeps h hin st (hin.stimuli rest s hs) hst
  | some op =>
    obtain ⟨f, bytes⟩ := op
    rw [step_of_bench hb, benchStep] at hst
    refine h.unlessReset (fun u v hu huv => ?_) (hin.bench s hs) hst
    split at huv
    · exact h.exec _ hu huv
    · cases huv

/-! The stream (R48, R222) -/

/-- The stream begins with what was on it in `s`. -/
def StreamFrom (s t : State) : Prop := ∃ bytes, t.stream = s.stream ++ bytes

theorem streamFrom_updates (s : State) : KeptByUpdates (StreamFrom s) := by
  constructor
  case reset =>
    rintro t ⟨bytes, h⟩
    exact ⟨bytes, (resetOp_stream t).trans h⟩
  case tx =>
    rintro t ⟨bytes, h⟩
    exact ⟨bytes ++ t.txArg, by rw [txOp_stream, h, List.append_assoc]⟩
  all_goals intros; assumption

theorem setSources_stream {a b : Memory} {s t : State} (h : setSources a b s = .next t) : t.stream = s.stream := by
  obtain ⟨-, rfl⟩ := setSources_eq_next.1 h
  rfl

theorem setSrcRow_eq (row : BitVec 3) (v : Byte) (s : State) :
    setSrcRow row v s =
      setSources (if row = 0 then s.status.writeBytes 0 (List.replicate 128 v) else s.status)
        (if row = 0 then s.fb else s.fb.writeBytes (128 * (row.toNat - 1)) (List.replicate 128 v)) s := by
  unfold setSrcRow
  split <;> rfl

theorem streamFrom_inputs (s : State) : KeptByInputs (StreamFrom s) := by
  constructor
  case srcByte =>
    rintro row col v t u ⟨bytes, h⟩ htu
    rw [setSrcByte_eq] at htu
    exact ⟨bytes, (setSources_stream htu).trans h⟩
  case srcRow =>
    rintro row v t u ⟨bytes, h⟩ htu
    rw [setSrcRow_eq] at htu
    exact ⟨bytes, (setSources_stream htu).trans h⟩
  all_goals intros; assumption

/-- Settles O52: the one update that writes the stream appends to it. -/
theorem theStreamOnlyGrows : Obligations.TheStreamOnlyGrows :=
  fun s _ h => step_keeps (streamFrom_updates s) (streamFrom_inputs s) ⟨[], (List.append_nil _).symm⟩ h

/-! The invariant of every state (R13, R15, R16, R40) -/

theorem gateKeepalive_le_ten (link : Bool) {k : BitVec 4} (hk : k.toNat ≤ 10) : (gateKeepalive link k).toNat ≤ 10 := by
  cases link with
  | true => exact Nat.le_refl 10
  | false =>
    rw [gateKeepalive_unlinked_toNat]
    omega

/-- RESET's free values lie in their ranges (log 3). -/
theorem inv_resetOp {s : State} (h : s.Inv) : (resetOp s).Inv := by
  have hgroups := (Config.resetGroups s.resets).isLt
  have hoidx := (Config.resetOidx s.resets).isLt
  have hblk := (Config.resetBlk s.resets).isLt
  have hdlen : (resetOp s).dlen.toNat = 9 * (Config.resetGroups s.resets).val := by
    rw [resetOp_dlen, BitVec.toNat_ofNat]
    exact Nat.mod_eq_of_lt (by simp only [Config.groupBytes]; omega)
  constructor
  case prevWf => rw [resetOp_prev, Memory.wf_nil]
  case prevWithin => rw [resetOp_prev, Memory.within_nil]
  case curWf => rw [resetOp_cur, Memory.tabulate_wf]
  case curWithin => rw [resetOp_cur, Memory.tabulate_within]
  case deltaWf => rw [resetOp_delta, Memory.tabulate_wf]
  case deltaWithin => rw [resetOp_delta, Memory.tabulate_within]
  case statusWf => rw [resetOp_status, h.statusWf]
  case statusWithin => rw [resetOp_status, h.statusWithin]
  case fbWf => rw [resetOp_fb, h.fbWf]
  case fbWithin => rw [resetOp_fb, h.fbWithin]
  case keepaliveRange =>
    rw [resetOp_keepalive]
    decide
  case oidxRange =>
    rw [resetOp_oidx, BitVec.toNat_ofNat]
    simp only [Config.frameBytes]
    omega
  case blkRange =>
    rw [resetOp_blk, BitVec.toNat_ofNat]
    simp only [Config.nBlocks]
    omega
  case dlenRange =>
    rw [hdlen]
    simp only [Config.deltaMax]
    omega
  case dlenGroups =>
    rw [hdlen]
    exact Nat.mul_mod_right 9 _

theorem inv_updates : KeptByUpdates State.Inv := by
  constructor
  case reset => exact fun _ h => inv_resetOp h
  case gate => exact fun s h => { h with keepaliveRange := gateKeepalive_le_ten s.linkPresent h.keepaliveRange }
  case packInit => exact fun _ h => { h with oidxRange := Nat.zero_le _ }
  case writeCur =>
    intro v s ho h
    have hsucc : (s.oidx + 1).toNat = s.oidx.toNat + 1 := by bv_omega
    exact { h with
      curWf := Memory.write_wf _ _ h.curWf
      curWithin := Memory.write_within _ h.curWithin ho
      oidxRange := hsucc ▸ ho }
  case emit =>
    intro b data s hb hdata hroom h
    have hsum : (s.dlen + 9).toNat = s.dlen.toNat + 9 := by bv_omega
    have hgroups : s.dlen.toNat % 9 = 0 := h.dlenGroups
    exact { h with
      deltaWf := Memory.writeBytes_wf _ _ h.deltaWf
      deltaWithin := Memory.writeBytes_within _ h.deltaWithin (by rw [List.length_cons, hdata]; exact hroom)
      prevWf := Memory.writeBytes_wf _ _ h.prevWf
      prevWithin := Memory.writeBytes_within _ h.prevWithin (by rw [hdata]; simp only [Config.frameBytes]; omega)
      dlenRange := hsum ▸ hroom
      dlenGroups := by simp only [hsum, Config.groupBytes]; omega }
  case nextBlock =>
    intro s hb h
    have hsucc : (s.blk + 1).toNat = s.blk.toNat + 1 := by bv_omega
    exact { h with blkRange := hsucc ▸ hb }
  case passInit => exact fun _ h => { h with blkRange := Nat.zero_le _, dlenRange := Nat.zero_le _, dlenGroups := rfl }
  all_goals
    intros
    rename_i h
    exact { h with }

/-- Sources in canonical form and inside their spaces keep the invariant. -/
theorem Inv.setSources {a b : Memory} {s t : State} (h : s.Inv) (ha : a.wf = true) (hb : b.wf = true)
    (haw : a.within 128 = true) (hbw : b.within 896 = true) (hst : setSources a b s = .next t) : t.Inv := by
  obtain ⟨-, rfl⟩ := setSources_eq_next.1 hst
  exact { h with statusWf := ha, fbWf := hb, statusWithin := haw, fbWithin := hbw }

theorem inv_inputs : KeptByInputs State.Inv := by
  constructor
  case srcZero => exact fun _ h => { h with statusWf := rfl, fbWf := rfl, statusWithin := rfl, fbWithin := rfl }
  case srcByte =>
    intro row col v s t h hst
    have hrow := row.isLt
    have hcol := col.isLt
    by_cases h0 : row = 0
    · rw [setSrcByte, if_pos h0] at hst
      exact Inv.setSources h (Memory.write_wf _ _ h.statusWf) h.fbWf (Memory.write_within _ h.statusWithin hcol) h.fbWithin hst
    · have hne : row.toNat ≠ 0 := fun hz => h0 (BitVec.eq_of_toNat_eq hz)
      rw [setSrcByte, if_neg h0] at hst
      exact Inv.setSources h h.statusWf (Memory.write_wf _ _ h.fbWf) h.statusWithin
        (Memory.write_within _ h.fbWithin (by simp only [Config.fbCols]; omega)) hst
  case srcRow =>
    intro row v s t h hst
    have hrow := row.isLt
    by_cases h0 : row = 0
    · rw [setSrcRow, if_pos h0] at hst
      exact Inv.setSources h (Memory.writeBytes_wf _ _ h.statusWf) h.fbWf
        (Memory.writeBytes_within _ h.statusWithin (by rw [List.length_replicate, Nat.zero_add])) h.fbWithin hst
    · have hne : row.toNat ≠ 0 := fun hz => h0 (BitVec.eq_of_toNat_eq hz)
      rw [setSrcRow, if_neg h0] at hst
      exact Inv.setSources h h.statusWf (Memory.writeBytes_wf _ _ h.fbWf) h.statusWithin
        (Memory.writeBytes_within _ h.fbWithin
          (by rw [List.length_replicate]; simp only [Config.fbCols]; omega)) hst
  all_goals
    intros
    rename_i h
    exact { h with }

/-- Settles O48: the invariant is kept by every update and by the environment. -/
theorem everyStepKeepsTheInvariant : Obligations.EveryStepKeepsTheInvariant :=
  fun _ _ hinv h => step_keeps inv_updates inv_inputs hinv h

/-! Operations complete without refusal (R190; log 14) -/

/-- The operation is never refused. -/
def NeverRefused (op : State → Res) : Prop := ∀ s r, op s ≠ .refused r

theorem neverRefused_next (f : State → State) : NeverRefused fun s => .next (f s) := fun _ _ h => nomatch h

theorem NeverRefused.andThen {f g : State → Res} (hf : NeverRefused f) (hg : NeverRefused g) :
    NeverRefused fun s => andThen (f s) g := by
  intro s r
  show Machine.andThen (f s) g ≠ .refused r
  cases hfs : f s with
  | next t => exact hg t r
  | fault e => exact fun h => nomatch h
  | refused e => exact absurd hfs (hf s e)

theorem NeverRefused.times {f : State → Res} (hf : NeverRefused f) (n : Nat) : NeverRefused (times n f) := by
  induction n with
  | zero => exact fun _ _ h => nomatch h
  | succ n ih => exact hf.andThen ih

theorem NeverRefused.ite {c : State → Prop} [∀ s, Decidable (c s)] {f g : State → Res} (hf : NeverRefused f)
    (hg : NeverRefused g) : NeverRefused fun s => if c s then f s else g s := by
  intro s r
  show (if c s then f s else g s) ≠ .refused r
  split
  · exact hf s r
  · exact hg s r

theorem neverRefused_fault (f : Fault) : NeverRefused fun _ => .fault f := fun _ _ h => nomatch h

theorem flushOp_neverRefused : NeverRefused flushOp := (neverRefused_next _).ite (neverRefused_fault _)

theorem packBitOp_neverRefused : NeverRefused packBitOp :=
  NeverRefused.ite (fun s => flushOp_neverRefused (placeBit s)) (neverRefused_next _)

theorem packRowOp_neverRefused : NeverRefused packRowOp :=
  fun _ => (packBitOp_neverRefused.andThen (neverRefused_next _)).times 1024 _

theorem pflushOp_neverRefused : NeverRefused pflushOp :=
  ((neverRefused_next _).ite (neverRefused_fault _)).ite (neverRefused_next id)

theorem cmp8Op_neverRefused : NeverRefused cmp8Op := (neverRefused_next _).ite (neverRefused_fault _)

theorem frameOp_neverRefused : NeverRefused frameOp := (neverRefused_next _).ite (neverRefused_fault _)

theorem emitGroupOp_neverRefused (b : Nat) (data : List Byte) : NeverRefused (emitGroupOp b data) :=
  ((neverRefused_next _).ite (neverRefused_fault _)).ite (c := fun _ => b < 128) (neverRefused_fault _)

theorem exec_shot_runs (f : Bool) (s : State) : ∃ t, exec (.shot f) s = .next t := by
  by_cases hidle : s.phase = .idle
  · obtain ⟨t, ht, -⟩ := everyInvocationEndsSentOrSuppressed f s hidle
    exact ⟨t, ht⟩
  · exact ⟨s, exec_shot_of_busy f hidle⟩

/-- An operation that answers a next state is not refused. -/
theorem ne_refused_of_runs {r : Res} (h : ∃ t, r = .next t) (e : Refusal) : r ≠ .refused e := by
  obtain ⟨t, rfl⟩ := h
  exact fun h => nomatch h

theorem exec_neverRefused (i : Instr) : NeverRefused (exec i) := by
  intro s r
  cases i with
  | shot f => exact ne_refused_of_runs (exec_shot_runs f s) r
  | pack => exact ne_refused_of_runs ((packOp_run s).imp' _ fun _ h => h.1) r
  | dpass => exact ne_refused_of_runs ((dpassOp_run s).imp fun _ h => h.1) r
  | packrow => exact packRowOp_neverRefused s r
  | packbit => exact packBitOp_neverRefused s r
  | flush => exact flushOp_neverRefused s r
  | pflush => exact pflushOp_neverRefused s r
  | cmp8 => exact cmp8Op_neverRefused s r
  | emitblk => exact emitGroupOp_neverRefused _ _ s r
  | frame => exact frameOp_neverRefused s r
  | group g => exact NeverRefused.ite (c := fun _ => g.wf = true) (emitGroupOp_neverRefused _ _) (neverRefused_fault _) s r
  | wire gs => exact NeverRefused.ite (c := fun _ => wfPayload gs = true) (neverRefused_next _) (neverRefused_fault _) s r
  | reset | gate | guard | sel | advance | emptychk | tx => exact ne_refused_of_runs ⟨_, rfl⟩ r

/-- Settles O53: no operation is refused; the ten run to their end. -/
theorem operationsCompleteWithoutRefusal : Obligations.OperationsCompleteWithoutRefusal := by
  refine ⟨exec_neverRefused, fun i s hi => ?_⟩
  rcases hi with ⟨f, rfl⟩ | rfl | rfl | rfl | rfl | rfl | rfl | rfl | rfl | rfl
  · exact exec_shot_runs f s
  · exact ⟨_, exec_reset s⟩
  · exact ⟨_, exec_gate s⟩
  · exact (packOp_run s).imp' _ fun _ h => h.1
  · exact ⟨_, rfl⟩
  · exact (dpassOp_run s).imp fun _ h => h.1
  · exact ⟨_, rfl⟩
  · exact ⟨_, exec_advance s⟩
  · exact ⟨_, exec_emptychk s⟩
  · exact ⟨_, exec_tx s⟩

end Sys2Proof.Machine
end

section
/-! The running block (spec/10_state.md R20): its invariant in each PHASE, what one move makes of it, and what one step with an
empty bench can be. -/

namespace Sys2Proof.Machine

/-! The invariant in each PHASE -/

/-- The block waits for a start. -/
theorem sequenceInv_of_idle {s : State} (hphase : s.phase = .idle) (hbench : s.bench = none) (hbit : s.bitcnt.toNat ≤ 8) :
    s.SequenceInv := by
  constructor <;> simp [hphase, hbench, hbit]

/-- The gate comes next. -/
theorem sequenceInv_of_gate {s : State} (hphase : s.phase = .gate) (hbench : s.bench = none) (hbit : s.bitcnt.toNat ≤ 8)
    (htx : s.tx = []) : s.SequenceInv := by
  constructor <;> simp [hphase, hbench, hbit, htx]

/-- The sources are being packed: the position counts the bits placed. -/
theorem sequenceInv_of_pack {s : State} (hphase : s.phase = .pack) (hbench : s.bench = none) (htx : s.tx = [])
    (hpos : s.pos.toNat = 8 * s.oidx.toNat + s.bitcnt.toNat) (hbit : s.bitcnt.toNat < 8) : s.SequenceInv := by
  constructor <;> simp [hphase, hbench, htx, hpos, hbit, hbit.le]

/-- The frame is packed and to be checked. -/
theorem sequenceInv_of_guard {s : State} (hphase : s.phase = .guard) (hbench : s.bench = none) (hbit : s.bitcnt.toNat ≤ 8)
    (htx : s.tx = []) (hoidx : s.oidx.toNat = 1024) : s.SequenceInv := by
  constructor <;> simp [hphase, hbench, hbit, htx, hoidx]

/-- The pass is at block BLK. -/
theorem sequenceInv_of_delta {s : State} (hphase : s.phase = .delta) (hbench : s.bench = none) (hbit : s.bitcnt.toNat ≤ 8)
    (htx : s.tx = []) (hblk : s.blk.toNat < 128) (hdlen : s.dlen.toNat ≤ 9 * s.blk.toNat)
    (hforced : s.cursor.toNat < s.blk.toNat → 9 ≤ s.dlen.toNat) : s.SequenceInv := by
  constructor <;> simp [hphase, hbench, hbit, htx, hblk, hdlen]
  exact hforced

/-- A frame is being sent. -/
theorem sequenceInv_of_frame {s : State} (hphase : s.phase = .frame) (hbench : s.bench = none) (hbit : s.bitcnt.toNat ≤ 8)
    (hpos : 9 ≤ s.dlen.toNat) (hle : s.dlen.toNat ≤ 1152) (hsent : s.tx.length < s.dlen.toNat + 6) : s.SequenceInv := by
  constructor <;> simp [hphase, hbench, hbit, hpos, hle, hsent]

/-! What a move makes of it -/

/-- How many moves are left at most, apart from those that wait for the transport: 8192 bits, 128 blocks and the bytes of the
longest frame, with GATE and GUARD. -/
def State.movesLeft (s : State) : Nat :=
  match s.phase with
  | .idle => 0
  | .gate => 9480
  | .pack => 8192 - s.pos.toNat + 1287
  | .guard => 1287
  | .delta => 128 - s.blk.toNat + 1158
  | .frame => s.dlen.toNat + 6 - s.tx.length

theorem movesLeft_gate {s : State} (h : s.phase = .gate) : s.movesLeft = 9480 := by rw [State.movesLeft, h]
theorem movesLeft_pack {s : State} (h : s.phase = .pack) : s.movesLeft = 8192 - s.pos.toNat + 1287 := by
  rw [State.movesLeft, h]
theorem movesLeft_guard {s : State} (h : s.phase = .guard) : s.movesLeft = 1287 := by rw [State.movesLeft, h]
theorem movesLeft_delta {s : State} (h : s.phase = .delta) : s.movesLeft = 128 - s.blk.toNat + 1158 := by
  rw [State.movesLeft, h]
theorem movesLeft_frame {s : State} (h : s.phase = .frame) : s.movesLeft = s.dlen.toNat + 6 - s.tx.length := by
  rw [State.movesLeft, h]

/-- What one move of a busy block comes to: it goes on with fewer moves left, it ends the invocation, SENT from FRAME or SUPPRESSED
from GATE, or it waits in FRAME for the transport. -/
inductive Moved (s t : State) : Prop
  | advanced (hbusy : t.phase ≠ .idle) (hleft : t.movesLeft < s.movesLeft)
  | ended (hidle : t.phase = .idle) (hdone : t.done = true)
      (hhow : s.phase = .frame ∧ t.outcome = .sent ∨ s.phase = .gate ∧ t.outcome = .suppressed)
  | waiting (hphase : s.phase = .frame) (hready : s.txTaken = false) (hsame : t = { s with empty := t.empty })

theorem phaseMove_gate {s : State} (h : s.phase = .gate) : phaseMove s = .next (gateMove s) := by rw [phaseMove, h]
theorem phaseMove_pack {s : State} (h : s.phase = .pack) : phaseMove s = packMove s := by rw [phaseMove, h]
theorem phaseMove_guard {s : State} (h : s.phase = .guard) : phaseMove s = .next (guardMove s) := by rw [phaseMove, h]
theorem phaseMove_delta {s : State} (h : s.phase = .delta) : phaseMove s = deltaMove s := by rw [phaseMove, h]
theorem phaseMove_frame {s : State} (h : s.phase = .frame) : phaseMove s = frameMove s := by rw [phaseMove, h]
theorem phaseMove_idle {s : State} (h : s.phase = .idle) : phaseMove s = .next (idleMove s) := by rw [phaseMove, h]

theorem gateMove_of_proceeds {s : State} (h : proceeds s.linkPresent s.keepalive = true) :
    gateMove s = { packInit (gateOp s) with phase := .pack } :=
  if_pos ((gateProceed_eq_proceeds _ _).trans h)

theorem gateMove_of_not_proceeds {s : State} (h : proceeds s.linkPresent s.keepalive = false) :
    gateMove s = exitInvocation .suppressed (gateOp s) := by
  have hno : (gateOp s).proceed = false := (gateProceed_eq_proceeds _ _).trans h
  rw [gateMove, hno]
  rfl

section
variable {s : State} (h : s.SequenceInv)
include h

theorem idleMove_sequenceInv (hphase : s.phase = .idle) : (idleMove s).SequenceInv := by
  unfold idleMove
  split
  · exact sequenceInv_of_gate rfl h.benchEmpty h.bitcntRange rfl
  · exact sequenceInv_of_idle hphase h.benchEmpty h.bitcntRange

theorem gateMove_run (hphase : s.phase = .gate) : (gateMove s).SequenceInv ∧ Moved s (gateMove s) := by
  have htx : s.tx = [] := h.nothingSent (by simp [hphase]) (by simp [hphase])
  cases hgo : proceeds s.linkPresent s.keepalive with
  | true =>
    rw [gateMove_of_proceeds hgo]
    refine ⟨sequenceInv_of_pack rfl h.benchEmpty htx rfl (Nat.zero_lt_succ 7), .advanced nofun ?_⟩
    rw [movesLeft_gate hphase, movesLeft_pack rfl]
    show 8192 - 0 + 1287 < 9480
    decide
  | false =>
    rw [gateMove_of_not_proceeds hgo]
    exact ⟨sequenceInv_of_idle rfl h.benchEmpty h.bitcntRange, .ended rfl rfl (.inr ⟨hphase, rfl⟩)⟩

/-- In PACK a visit finds room in CUR. -/
theorem pack_visit (hphase : s.phase = .pack) : ∃ t, visitOp s = .next t ∧ Visited s 1 t := by
  obtain ⟨hpos, hbit⟩ := h.packPlaced hphase
  have hlt := s.pos.isLt
  have hone : times 1 visitOp s = visitOp s := andThen_pure (visitOp s)
  exact hone ▸ visits_run hbit (by omega)

theorem packMove_run (hphase : s.phase = .pack) : ∃ t, packMove s = .next t ∧ t.SequenceInv ∧ Moved s t := by
  obtain ⟨hpos, hbit⟩ := h.packPlaced hphase
  have htx : s.tx = [] := h.nothingSent (by simp [hphase]) (by simp [hphase])
  obtain ⟨t, ht, hv⟩ := pack_visit h hphase
  have hcount := hv.count
  have hrange := hv.bitcntRange
  have hlt := s.pos.isLt
  have htpos : t.pos.toNat = (s.pos.toNat + 1) % 8192 := by
    rw [hv.pos, BitVec.toNat_add]
    rfl
  obtain ⟨htphase, htbench, httx⟩ : t.phase = s.phase ∧ t.bench = s.bench ∧ t.tx = s.tx := by
    obtain ⟨_, _, _, _, _, rfl⟩ := hv.frame
    exact ⟨rfl, rfl, rfl⟩
  by_cases hlast : t.pos = 0
  · have hzero : t.pos.toNat = 0 := by
      rw [hlast]
      rfl
    have hb0 : t.bitcnt = 0 := BitVec.eq_of_toNat_eq (show t.bitcnt.toNat = 0 by omega)
    refine ⟨{ t with phase := .guard }, ?_, ?_, .advanced nofun ?_⟩
    · rw [packMove, ht, andThen_next, if_pos hlast, pflushOp_of_bitcnt_zero hb0, andThen_next]
    · exact sequenceInv_of_guard rfl (htbench.trans h.benchEmpty) hrange.le (httx.trans htx)
        (show t.oidx.toNat = 1024 by omega)
    · rw [movesLeft_pack hphase, movesLeft_guard rfl]
      omega
  · have hne : t.pos.toNat ≠ 0 := fun hz => hlast (BitVec.eq_of_toNat_eq hz)
    refine ⟨t, ?_, ?_, .advanced (by simp [htphase, hphase]) ?_⟩
    · rw [packMove, ht, andThen_next, if_neg hlast]
    · exact sequenceInv_of_pack (htphase.trans hphase) (htbench.trans h.benchEmpty) (httx.trans htx) (by omega) hrange
    · rw [movesLeft_pack hphase, movesLeft_pack (htphase.trans hphase)]
      omega

/-- In GUARD the frame is whole, so the pass follows. -/
theorem guardMove_eq (hphase : s.phase = .guard) :
    guardMove s = { passInit { s with shapeOk := true } with phase := .delta } := by
  have hok : shapeOkFlag s.oidx = true := decide_eq_true (h.guardWhole hphase)
  rw [guardMove, guardOp, hok]
  rfl

theorem guardMove_run (hphase : s.phase = .guard) : (guardMove s).SequenceInv ∧ Moved s (guardMove s) := by
  have htx : s.tx = [] := h.nothingSent (by simp [hphase]) (by simp [hphase])
  rw [guardMove_eq h hphase]
  refine ⟨sequenceInv_of_delta rfl h.benchEmpty h.bitcntRange htx (Nat.zero_lt_succ 127) (Nat.le_refl 0)
    (fun hlt => absurd hlt (Nat.not_lt_zero _)), .advanced nofun ?_⟩
  rw [movesLeft_guard hphase, movesLeft_delta rfl]
  show 128 - 0 + 1158 < 1287
  decide

theorem deltaMove_run (hphase : s.phase = .delta) : ∃ t, deltaMove s = .next t ∧ t.SequenceInv ∧ Moved s t := by
  have hb : s.blk.toNat < 128 := h.deltaBlock hphase
  have hle : s.dlen.toNat ≤ 9 * s.blk.toNat := h.deltaPayload hphase
  have hin : s.cursor.toNat < s.blk.toNat → 9 ≤ s.dlen.toNat := h.deltaForced hphase
  have htx : s.tx = [] := h.nothingSent (by simp [hphase]) (by simp [hphase])
  obtain ⟨t, ht, hblk, hmono, hone, hforced⟩ := blockOp_run hb (by omega)
  obtain ⟨htphase, htbench, httx, hbit, hcur⟩ :
      t.phase = s.phase ∧ t.bench = s.bench ∧ t.tx = s.tx ∧ t.bitcnt = s.bitcnt ∧ t.cursor = s.cursor := by
    obtain ⟨_, _, _, _, _, _, _, rfl⟩ := passFrame_blockOp ht
    exact ⟨rfl, rfl, rfl, rfl, rfl⟩
  have hbit' : t.bitcnt.toNat ≤ 8 := hbit ▸ h.bitcntRange
  have hcurlt := s.cursor.isLt
  rw [deltaMove_of_blockOp ht]
  by_cases hlast : t.blk.toNat = 128
  · rw [if_pos hlast]
    refine ⟨_, rfl, ?_, .advanced nofun ?_⟩
    · exact sequenceInv_of_frame rfl (htbench.trans h.benchEmpty) hbit' (show 9 ≤ t.dlen.toNat by omega)
        (show t.dlen.toNat ≤ 1152 by omega) (show t.tx.length < t.dlen.toNat + 6 by rw [httx, htx, List.length_nil]; omega)
    · have hleft : State.movesLeft { advanceOp t with phase := .frame } = t.dlen.toNat + 6 - t.tx.length :=
        movesLeft_frame rfl
      rw [movesLeft_delta hphase, hleft]
      omega
  · rw [if_neg hlast]
    refine ⟨t, rfl, ?_, .advanced (by simp [htphase, hphase]) ?_⟩
    · exact sequenceInv_of_delta (htphase.trans hphase) (htbench.trans h.benchEmpty) hbit' (httx.trans htx) (by omega)
        (by omega) (by rw [hcur]; omega)
    · rw [movesLeft_delta hphase, movesLeft_delta (htphase.trans hphase)]
      omega

/-! The moves of FRAME -/

/-- The state in which FRAME sends its next byte: before the first EMPTYCHK has written its signal (R101). -/
def framing (s : State) : State := if s.tx = [] then emptyChkOp s else s

omit h in
theorem framing_eq (s : State) : framing s = { s with empty := (framing s).empty } := by
  unfold framing
  split <;> rfl

omit h in
/-- A byte is handed over, and with the last one the invocation ends. -/
def handOver (b : Byte) (s : State) : State :=
  if s.tx.length + 1 = s.dlen.toNat + 6 then exitInvocation .sent (txBytes [b] s) else txBytes [b] s

/-- In FRAME there is always a byte to send. -/
theorem frame_next_byte (hphase : s.phase = .frame) : ∃ b, (frameOf s)[s.tx.length]? = some b :=
  ⟨_, List.getElem?_eq_getElem (by rw [frameOf_length]; exact h.frameSent hphase)⟩

/-- The move of FRAME: the next byte where the transport takes it, else nothing but EMPTYCHK's signal. -/
theorem frameMove_eq (hphase : s.phase = .frame) {b : Byte} (hb : (frameOf s)[s.tx.length]? = some b) :
    frameMove s = .next (if s.txTaken then handOver b (framing s) else framing s) := by
  obtain ⟨hpos, hle⟩ := h.framePayload hphase
  simp only [Config.groupBytes, Config.deltaMax] at hpos hle
  have hempty : (emptyChkOp s).empty = false := by
    rw [← Bool.not_eq_true, emptyChkOp_empty, emptyFlag_iff]
    omega
  have hsend (e : Bool) : sendMove { s with empty := e } =
      if s.txTaken then handOver b { s with empty := e } else { s with empty := e } := by
    have hbyte : (frameOf { s with empty := e })[{ s with empty := e }.tx.length]? = some b := hb
    have hlen : (frameOf { s with empty := e }).length = s.dlen.toNat + 6 := frameOf_length _
    rw [sendMove, hbyte]
    simp only [hlen]
    rfl
  have hmove : frameMove s = .next (sendMove (framing s)) := by
    rw [frameMove, if_neg (Nat.not_lt.2 hle), framing, hempty]
    split <;> rfl
  rw [hmove, framing_eq s, hsend]

theorem frameMove_run (hphase : s.phase = .frame) : ∃ t, frameMove s = .next t ∧ t.SequenceInv ∧ Moved s t := by
  obtain ⟨hpos, hle⟩ := h.framePayload hphase
  obtain ⟨b, hb⟩ := frame_next_byte h hphase
  have hsent := h.frameSent hphase
  refine ⟨_, frameMove_eq h hphase hb, ?_⟩
  rw [framing_eq s]
  cases htaken : s.txTaken with
  | false =>
    exact ⟨sequenceInv_of_frame hphase h.benchEmpty h.bitcntRange hpos hle hsent, .waiting hphase htaken rfl⟩
  | true =>
    rw [if_pos rfl, handOver]
    by_cases hlast : s.tx.length + 1 = s.dlen.toNat + 6
    · rw [if_pos hlast]
      exact ⟨sequenceInv_of_idle rfl h.benchEmpty h.bitcntRange, .ended rfl rfl (.inl ⟨hphase, rfl⟩)⟩
    · rw [if_neg hlast]
      have hlen : (s.tx ++ [b]).length < s.dlen.toNat + 6 := by
        rw [List.length_append, List.length_singleton]
        omega
      refine ⟨sequenceInv_of_frame hphase h.benchEmpty h.bitcntRange hpos hle hlen, .advanced ?_ ?_⟩
      · simp [hphase]
      · rw [movesLeft_frame hphase, movesLeft_frame (by exact hphase), txBytes_tx, txBytes_dlen, List.length_append,
          List.length_singleton]
        simp only
        omega

/-- A move of the busy block never stops, keeps the invariant, and comes to one of the three. -/
theorem phaseMove_run (hbusy : s.phase ≠ .idle) : ∃ t, phaseMove s = .next t ∧ t.SequenceInv ∧ Moved s t := by
  cases hphase : s.phase with
  | idle => exact absurd hphase hbusy
  | gate => exact ⟨_, phaseMove_gate hphase, gateMove_run h hphase⟩
  | pack => exact phaseMove_pack hphase ▸ packMove_run h hphase
  | guard => exact ⟨_, phaseMove_guard hphase, guardMove_run h hphase⟩
  | delta => exact phaseMove_delta hphase ▸ deltaMove_run h hphase
  | frame => exact phaseMove_frame hphase ▸ frameMove_run h hphase

theorem phaseMove_sequenceInv : ∃ t, phaseMove s = .next t ∧ t.SequenceInv := by
  by_cases hphase : s.phase = .idle
  · exact ⟨_, phaseMove_idle hphase, idleMove_sequenceInv h hphase⟩
  · obtain ⟨t, ht, hinv, -⟩ := phaseMove_run h hphase
    exact ⟨t, ht, hinv⟩

omit h in
theorem resetOp_sequenceInv (hbench : s.bench = none) : (resetOp s).SequenceInv := by
  have hbit := (Config.resetBitcnt s.resets).isLt
  refine sequenceInv_of_idle (resetOp_phase s) ((resetOp_bench s).trans hbench) ?_
  rw [resetOp_bitcnt, BitVec.toNat_ofNat]
  omega

omit h in
/-- What keeps the invariant keeps it under the reset pin too. -/
theorem unlessReset_sequenceInv {k : State → Res} (hbench : s.bench = none) (hk : ∃ t, k s = .next t ∧ t.SequenceInv) :
    ∃ t, unlessReset k s = .next t ∧ t.SequenceInv := by
  cases hr : s.rst with
  | true => exact ⟨_, unlessReset_high hr, resetOp_sequenceInv hbench⟩
  | false => exact unlessReset_low hr ▸ hk

theorem tick_sequenceInv : ∃ t, tick s = .next t ∧ t.SequenceInv :=
  unlessReset_sequenceInv h.benchEmpty (phaseMove_sequenceInv h)

theorem exec_shot_sequenceInv (f : Bool) : ∃ t, exec (.shot f) s = .next t ∧ t.SequenceInv := by
  by_cases hidle : s.phase = .idle
  · cases hgo : proceeds s.linkPresent s.keepalive with
    | true =>
      obtain ⟨t, ht, hsent⟩ := exec_shot_sent f hidle hgo
      have hbench : t.bench = none := (congrArg Environment.bench hsent.environment).trans h.benchEmpty
      exact ⟨t, ht, sequenceInv_of_idle hsent.phase hbench (by rw [hsent.bitcnt]; decide)⟩
    | false => exact ⟨_, exec_shot_suppressed f hidle hgo, sequenceInv_of_idle rfl h.benchEmpty h.bitcntRange⟩
  · exact ⟨s, exec_shot_of_busy f hidle, h⟩

end

/-! One step of the running block -/

/-- `t` is `s` but for inputs of the block: pins, sources and stimuli. -/
def InputsChanged (s t : State) : Prop :=
  ∃ rst start forcePin link ready status fb stimuli, t = { s with
    rst := rst, start := start, forcePin := forcePin, linkPresent := link, txReady := ready, status := status, fb := fb,
    stimuli := stimuli }

theorem InputsChanged.refl (s : State) : InputsChanged s s := ⟨_, _, _, _, _, _, _, _, rfl⟩

/-- The invariant is about the block's own cells and the bench. -/
theorem InputsChanged.sequenceInv {s t : State} (hst : InputsChanged s t) (h : s.SequenceInv) : t.SequenceInv := by
  obtain ⟨_, _, _, _, _, _, _, _, rfl⟩ := hst
  exact { h with }

theorem setSources_inputsChanged {a b : Memory} {s t u : State} (hu : InputsChanged s u) (h : setSources a b u = .next t) :
    InputsChanged s t := by
  obtain ⟨-, rfl⟩ := setSources_eq_next.1 h
  obtain ⟨_, _, _, _, _, _, _, _, rfl⟩ := hu
  exact ⟨_, _, _, _, _, _, _, _, rfl⟩

/-- All that a step with an empty bench can be: RESET, a move, the command's SHOT, or a change of the inputs. -/
inductive Stepped (s t : State) : Prop
  | reset (u : State) (hu : InputsChanged s u) (ht : t = resetOp u)
  | move (u : State) (hu : InputsChanged s u) (hmoves : s.movesNext = true) (ht : phaseMove u = .next t)
  | command (f : Bool) (rest : List Stimulus) (hst : s.stimuli = .command f :: rest)
      (ht : exec (.shot f) { s with stimuli := rest } = .next t)
  | inputs (ht : InputsChanged s t)

theorem stepped_of_tick {s u t : State} (hu : InputsChanged s u) (hmoves : s.movesNext = true) (h : tick u = .next t) :
    Stepped s t := by
  obtain ⟨-, ht⟩ | ⟨-, ht⟩ := unlessReset_eq_next.1 h
  · exact .reset u hu ht
  · exact .move u hu hmoves ht

theorem stepped {s t : State} (hb : s.bench = none) (h : step s = .next t) : Stepped s t := by
  cases hl : s.stimuli with
  | nil =>
    rw [step_of_no_stimulus hb hl] at h
    exact stepped_of_tick (.refl s) (by rw [State.movesNext, hl]) h
  | cons st rest =>
    rw [step_of_stimulus hb hl] at h
    have htaken : InputsChanged s { s with stimuli := rest } := ⟨_, _, _, _, _, _, _, _, rfl⟩
    cases st with
    | command f =>
      obtain ⟨-, ht⟩ | ⟨-, ht⟩ := unlessReset_eq_next.1 h
      · exact .reset _ htaken ht
      · exact .command f rest hl ht
    | reset =>
      cases h
      exact .reset _ htaken rfl
    | pins r st f l rd =>
      rw [stimulate] at h
      exact stepped_of_tick ⟨_, _, _, _, _, _, _, _, rfl⟩ (by rw [State.movesNext, hl]) h
    | link l =>
      cases h
      exact .inputs ⟨_, _, _, _, _, _, _, _, rfl⟩
    | srcZero => exact .inputs (setSources_inputsChanged htaken h)
    | srcByte row col v =>
      rw [stimulate, setSrcByte_eq] at h
      exact .inputs (setSources_inputsChanged htaken h)
    | srcRow row v =>
      rw [stimulate, setSrcRow_eq] at h
      exact .inputs (setSources_inputsChanged htaken h)

/-- A change of the sources outside PACK's snapshot answers a next state. -/
theorem setSources_sequenceInv {a b : Memory} {rest : List Stimulus} {s : State} (h : s.SequenceInv)
    (hclosed : snapshotOpen s = false) : ∃ t, setSources a b { s with stimuli := rest } = .next t ∧ t.SequenceInv :=
  ⟨_, setSources_eq_next.2 ⟨hclosed, rfl⟩, { h with }⟩

/-- Settles O44: by what the environment does at the step. -/
theorem theSequencerKeepsGoing : Obligations.TheSequencerKeepsGoing := by
  intro s h hsnap
  cases hl : s.stimuli with
  | nil => exact step_of_no_stimulus h.benchEmpty hl ▸ tick_sequenceInv h
  | cons st rest =>
    have htaken : State.SequenceInv { s with stimuli := rest } := { h with }
    rw [step_of_stimulus h.benchEmpty hl]
    rw [State.snapshotKept, hl] at hsnap
    cases st with
    | command f => exact unlessReset_sequenceInv htaken.benchEmpty (exec_shot_sequenceInv htaken f)
    | reset => exact ⟨_, rfl, resetOp_sequenceInv h.benchEmpty⟩
    | pins r st f l rd => exact tick_sequenceInv (InputsChanged.sequenceInv ⟨_, _, _, _, _, _, _, _, rfl⟩ htaken)
    | link l => exact ⟨_, rfl, { h with }⟩
    | srcZero =>
      have hclosed : snapshotOpen s = false := by simpa using hsnap
      exact setSources_sequenceInv h hclosed
    | srcByte row col v =>
      have hclosed : snapshotOpen s = false := by simpa using hsnap
      rw [stimulate, setSrcByte_eq]
      exact setSources_sequenceInv h hclosed
    | srcRow row v =>
      have hclosed : snapshotOpen s = false := by simpa using hsnap
      rw [stimulate, setSrcRow_eq]
      exact setSources_sequenceInv h hclosed

/-- Settles O45: of all that a step can be, only a move that ends the invocation leads from busy to IDLE without RESET. -/
theorem sequencedInvocationsEndSentOrSuppressed : Obligations.SequencedInvocationsEndSentOrSuppressed := by
  intro s t h hstep hbusy hidle hresets
  rw [busy_eq_true_iff] at hbusy
  rw [busy_eq_false_iff] at hidle
  cases stepped h.benchEmpty hstep with
  | reset u hu ht =>
    obtain ⟨_, _, _, _, _, _, _, _, rfl⟩ := hu
    rw [ht, resetOp_resets] at hresets
    exact absurd hresets (Nat.succ_ne_self _)
  | move u hu _ ht =>
    have hinv := hu.sequenceInv h
    obtain ⟨_, _, _, _, _, _, _, _, rfl⟩ := hu
    obtain ⟨v, hv, -, hmoved⟩ := phaseMove_run hinv hbusy
    cases hv.symm.trans ht
    cases hmoved with
    | advanced hnext _ => exact absurd hidle hnext
    | ended _ hdone hhow => exact ⟨hdone, hhow⟩
    | waiting hphase _ hsame =>
      rw [hsame] at hidle
      exact absurd hidle hbusy
  | command f rest _ ht =>
    cases (exec_shot_of_busy f (s := { s with stimuli := rest }) hbusy).symm.trans ht
    exact absurd hidle hbusy
  | inputs ht =>
    obtain ⟨_, _, _, _, _, _, _, _, rfl⟩ := ht
    exact absurd hidle hbusy

/-- Settles O46: the move of FRAME by its next byte. -/
theorem frameHandsOverOneByteOrWaits : Obligations.FrameHandsOverOneByteOrWaits := by
  intro s h hst hr hphase
  obtain ⟨b, hb⟩ := frame_next_byte h hphase
  obtain ⟨hpos, -⟩ := h.framePayload hphase
  have hne : s.dlen ≠ 0 := by
    intro h0
    rw [h0] at hpos
    exact absurd hpos (by decide)
  have hpresented : s.presented = some b := by
    rw [State.presented, if_pos ⟨hphase, hne⟩, hb]
  have hvalid : s.txValid = true := by
    rw [State.txValid, hpresented]
    rfl
  have hlast : s.txLast = true ↔ s.tx.length + 1 = s.dlen.toNat + 6 := by
    rw [State.txLast, hvalid, frameOf_length, Bool.true_and, decide_eq_true_iff]
  have hstep : step s = .next (if s.txTaken then handOver b (framing s) else framing s) := by
    rw [step_of_no_stimulus h.benchEmpty hst, tick_of_not_rst hr, phaseMove_frame hphase, frameMove_eq h hphase hb]
  refine ⟨_, b, hstep, hpresented, hvalid, fun hready => ?_, fun hhas hnot => ?_⟩
  · have htaken : s.txTaken = true := by
      rcases hready with hready | hready <;> simp [State.txTaken, hready]
    rw [if_pos htaken, framing_eq s, handOver]
    by_cases hend : s.tx.length + 1 = s.dlen.toNat + 6
    · rw [if_pos hend]
      exact ⟨rfl, rfl, iff_of_true rfl (hlast.2 hend), rfl, rfl, rfl⟩
    · rw [if_neg hend]
      refine ⟨rfl, rfl, iff_of_false ?_ (mt hlast.1 hend), rfl, rfl, rfl⟩
      simp [hphase]
  · have hwait : s.txTaken = false := by simp [State.txTaken, hhas, hnot]
    rw [hwait, if_neg Bool.false_ne_true]
    exact ⟨framing_eq s, fun hsent => if_neg hsent⟩

/-! The writers of the persistent cells and of the stream -/

/-- What one move leaves alone, by PHASE: PREV and CURSOR outside DELTA, KEEPALIVE outside GATE, the stream outside FRAME. -/
structure MoveFrame (s t : State) : Prop where
  prev : s.phase ≠ .delta → t.prev = s.prev
  cursor : s.phase ≠ .delta → t.cursor = s.cursor
  cursorStep : s.phase = .delta → t.cursor ≠ s.cursor → s.blk.toNat = 127 ∧ t.cursor = s.cursor + 1
  keepalive : s.phase ≠ .gate → t.keepalive = s.keepalive
  stream : s.phase ≠ .frame → t.stream = s.stream

theorem idleMove_frame {s : State} (h : s.phase = .idle) : MoveFrame s (idleMove s) := by
  unfold idleMove
  split <;> exact ⟨fun _ => rfl, fun _ => rfl, by simp [h], fun _ => rfl, fun _ => rfl⟩

theorem gateMove_frame {s : State} (h : s.phase = .gate) : MoveFrame s (gateMove s) := by
  unfold gateMove
  split <;> exact ⟨fun _ => rfl, fun _ => rfl, by simp [h], by simp [h], fun _ => rfl⟩

theorem guardMove_frame {s : State} (h : s.phase = .guard) : MoveFrame s (guardMove s) := by
  unfold guardMove
  split <;> exact ⟨fun _ => rfl, fun _ => rfl, by simp [h], fun _ => rfl, fun _ => rfl⟩

theorem packMove_frame {s t : State} (h : s.phase = .pack) (ht : packMove s = .next t) : MoveFrame s t := by
  obtain ⟨u, hu, ht⟩ := andThen_eq_next.1 ht
  obtain ⟨_, _, _, _, _, rfl⟩ := packerFrame_visitOp hu
  split at ht
  · obtain ⟨v, hv, ht⟩ := andThen_eq_next.1 ht
    obtain ⟨_, _, _, _, _, rfl⟩ := packerFrame_pflushOp hv
    cases ht
    exact ⟨fun _ => rfl, fun _ => rfl, by simp [h], fun _ => rfl, fun _ => rfl⟩
  · cases ht
    exact ⟨fun _ => rfl, fun _ => rfl, by simp [h], fun _ => rfl, fun _ => rfl⟩

/-- A block of the pass counts BLK up, from below 128. -/
theorem blockOp_blk {s t : State} (h : blockOp s = .next t) : t.blk.toNat = s.blk.toNat + 1 := by
  obtain ⟨u, v, hcmp, hincl, rfl⟩ := blockOp_eq_next.1 h
  obtain ⟨hb, rfl⟩ := cmp8Op_eq_next.1 hcmp
  have hsucc : (s.blk + 1).toNat = s.blk.toNat + 1 := by bv_omega
  obtain ⟨-, hemit⟩ | ⟨-, rfl⟩ := hincl
  · obtain ⟨-, -, rfl⟩ := emitGroupOp_eq_next.1 hemit
    exact hsucc
  · exact hsucc

theorem deltaMove_frame {s t : State} (h : s.phase = .delta) (ht : deltaMove s = .next t) : MoveFrame s t := by
  obtain ⟨u, hu, -⟩ := andThen_eq_next.1 ht
  have hblk := blockOp_blk hu
  rw [deltaMove_of_blockOp hu] at ht
  obtain ⟨_, _, _, _, _, _, _, rfl⟩ := passFrame_blockOp hu
  by_cases hlast : s.blk.toNat = 127
  · rw [if_pos (by rw [hblk, hlast])] at ht
    cases ht
    exact ⟨by simp [h], by simp [h], fun _ _ => ⟨hlast, rfl⟩, fun _ => rfl, fun _ => rfl⟩
  · rw [if_neg (by rw [hblk]; omega)] at ht
    cases ht
    exact ⟨by simp [h], by simp [h], fun _ hne => absurd rfl hne, fun _ => rfl, fun _ => rfl⟩

theorem sendMove_cells (s : State) :
    (sendMove s).prev = s.prev ∧ (sendMove s).cursor = s.cursor ∧ (sendMove s).keepalive = s.keepalive := by
  unfold sendMove
  split
  · exact ⟨rfl, rfl, rfl⟩
  · split_ifs <;> exact ⟨rfl, rfl, rfl⟩

theorem frameMove_frame {s t : State} (h : s.phase = .frame) (ht : frameMove s = .next t) : MoveFrame s t := by
  have hcells : t.prev = s.prev ∧ t.cursor = s.cursor ∧ t.keepalive = s.keepalive := by
    unfold frameMove at ht
    split_ifs at ht <;> cases ht
    · exact ⟨rfl, rfl, rfl⟩
    · exact sendMove_cells (emptyChkOp s)
    · exact sendMove_cells s
  obtain ⟨hprev, hcursor, hkeep⟩ := hcells
  exact ⟨fun _ => hprev, fun _ => hcursor, by simp [h], fun _ => hkeep, by simp [h]⟩

theorem phaseMove_moveFrame {s t : State} (ht : phaseMove s = .next t) : MoveFrame s t := by
  cases hphase : s.phase with
  | idle =>
    cases (phaseMove_idle hphase).symm.trans ht
    exact idleMove_frame hphase
  | gate =>
    cases (phaseMove_gate hphase).symm.trans ht
    exact gateMove_frame hphase
  | pack => exact packMove_frame hphase ((phaseMove_pack hphase).symm.trans ht)
  | guard =>
    cases (phaseMove_guard hphase).symm.trans ht
    exact guardMove_frame hphase
  | delta => exact deltaMove_frame hphase ((phaseMove_delta hphase).symm.trans ht)
  | frame => exact frameMove_frame hphase ((phaseMove_frame hphase).symm.trans ht)

/-- PREV, CURSOR and KEEPALIVE (R23). -/
def State.persistent (s : State) : Memory × BitVec 7 × BitVec 4 := (s.prev, s.cursor, s.keepalive)

theorem persistent_eq_iff (s t : State) :
    t.persistent = s.persistent ↔ t.prev = s.prev ∧ t.cursor = s.cursor ∧ t.keepalive = s.keepalive := by
  simp [State.persistent]

theorem PackerFrame.persistent {s t : State} (h : PackerFrame s t) : t.persistent = s.persistent := by
  obtain ⟨_, _, _, _, _, rfl⟩ := h
  rfl

theorem sendFrame_persistent (payload : List Byte) (s : State) : (sendFrame payload s).persistent = s.persistent := by
  rw [sendFrame_eq]
  rfl

theorem emitGroupOp_cells {b : Nat} {data : List Byte} {s t : State} (h : emitGroupOp b data s = .next t) :
    t.cursor = s.cursor ∧ t.keepalive = s.keepalive := by
  obtain ⟨-, -, rfl⟩ := emitGroupOp_eq_next.1 h
  exact ⟨rfl, rfl⟩

theorem dpassOp_keepalive {s t : State} (h : dpassOp s = .next t) : t.keepalive = s.keepalive := by
  obtain ⟨u, hu, hdone⟩ := dpassOp_run s
  cases hu.symm.trans h
  exact (congrArg State.keepalive hdone.frame).trans rfl

theorem exec_pack (s : State) : exec .pack s = packOp s := rfl

theorem exec_packrow (s : State) : exec .packrow s = packRowOp s := rfl

/-- An operation that is none of the writers leaves the three cells (R11 to R13). -/
theorem exec_persistent_of_other {i : Instr} {s t : State} (h : exec i s = .next t)
    (hi : (∀ f, i ≠ .shot f) ∧ i ≠ .reset ∧ i ≠ .gate ∧ i ≠ .dpass ∧ i ≠ .emitblk ∧ i ≠ .advance ∧ ∀ g, i ≠ .group g) :
    t.persistent = s.persistent := by
  obtain ⟨hshot, hreset, hgate, hdpass, hemitblk, hadvance, hgroup⟩ := hi
  cases i with
  | shot f => exact absurd rfl (hshot f)
  | reset => exact absurd rfl hreset
  | gate => exact absurd rfl hgate
  | dpass => exact absurd rfl hdpass
  | emitblk => exact absurd rfl hemitblk
  | advance => exact absurd rfl hadvance
  | group g => exact absurd rfl (hgroup g)
  | pack => exact (packerFrame_packOp ((exec_pack s).symm.trans h)).persistent
  | packrow => exact (packerFrame_packRowOp ((exec_packrow s).symm.trans h)).persistent
  | packbit =>
    obtain ⟨-, rfl⟩ | ⟨-, -, rfl⟩ := packBitOp_eq_next.1 h <;> rfl
  | flush =>
    obtain ⟨-, rfl⟩ := flushOp_eq_next.1 h
    rfl
  | pflush => exact (packerFrame_pflushOp h).persistent
  | cmp8 =>
    obtain ⟨-, rfl⟩ := cmp8Op_eq_next.1 h
    rfl
  | frame =>
    obtain ⟨-, rfl⟩ := frameOp_eq_next.1 h
    exact sendFrame_persistent _ s
  | wire gs =>
    by_cases hgs : wfPayload gs = true
    · cases (if_pos hgs : exec (.wire gs) s = .next (sendFrame (payloadBytes gs) s)).symm.trans h
      exact sendFrame_persistent _ s
    · cases (if_neg hgs : exec (.wire gs) s = .fault .illFormed).symm.trans h
  | guard | sel | emptychk | tx =>
    cases h
    rfl

/-- GROUP is EMITBLK's effect with another operand (log 8). -/
theorem exec_group_cells {g : Group} {s t : State} (h : exec (.group g) s = .next t) :
    t.cursor = s.cursor ∧ t.keepalive = s.keepalive := by
  by_cases hg : g.wf = true
  · exact emitGroupOp_cells ((exec_group_of_wf hg s).symm.trans h)
  · cases (if_neg hg : exec (.group g) s = .fault .illFormed).symm.trans h

theorem exec_writers {i : Instr} {s t : State} (h : exec i s = .next t) :
    (t.prev ≠ s.prev → (∃ f, i = .shot f) ∨ i = .reset ∨ i = .dpass ∨ i = .emitblk ∨ ∃ g, i = .group g) ∧
    (t.cursor ≠ s.cursor → (∃ f, i = .shot f) ∨ i = .reset ∨ i = .dpass ∨ i = .advance) ∧
    (t.keepalive ≠ s.keepalive → (∃ f, i = .shot f) ∨ i = .reset ∨ i = .gate) := by
  cases i with
  | shot f => simp
  | reset => simp
  | gate =>
    cases h
    simp
  | dpass => simp [dpassOp_keepalive h]
  | emitblk =>
    obtain ⟨hcursor, hkeep⟩ := emitGroupOp_cells h
    simp [hcursor, hkeep]
  | advance =>
    cases h
    simp
  | group g =>
    obtain ⟨hcursor, hkeep⟩ := exec_group_cells h
    simp [hcursor, hkeep]
  | pack | packrow | packbit | flush | pflush | guard | cmp8 | sel | emptychk | frame | tx | wire gs =>
    obtain ⟨hprev, hcursor, hkeep⟩ := (persistent_eq_iff s t).1 (exec_persistent_of_other h (by simp))
    simp [hprev, hcursor, hkeep]

/-- Settles O50: the operations by name, the moves by PHASE. -/
theorem onlyTheirWritersChangeThePersistentCells : Obligations.OnlyTheirWritersChangeThePersistentCells := by
  refine ⟨fun i s t h => exec_writers h, fun s t hr h => ?_⟩
  rw [tick_of_not_rst hr] at h
  have hmove := phaseMove_moveFrame h
  refine ⟨fun hne => ?_, fun hne => ?_, fun hne => ?_⟩
  · by_contra hphase
    exact hne (hmove.prev hphase)
  · have hphase : s.phase = .delta := by
      by_contra hphase
      exact hne (hmove.cursor hphase)
    exact ⟨hphase, hmove.cursorStep hphase hne⟩
  · by_contra hphase
    exact hne (hmove.keepalive hphase)

/-- No step fills the bench (log 26). -/
theorem Stepped.bench {s t : State} (h : Stepped s t) : t.bench = s.bench := by
  cases h with
  | reset u hu ht =>
    obtain ⟨_, _, _, _, _, _, _, _, rfl⟩ := hu
    rw [ht, resetOp_bench]
  | move u hu _ ht =>
    have henv := congrArg Environment.bench (phaseMove_keepsEnvironment ht)
    obtain ⟨_, _, _, _, _, _, _, _, rfl⟩ := hu
    exact henv
  | command f rest _ ht => exact (congrArg Environment.bench (exec_keepsEnvironment _ ht)).trans rfl
  | inputs ht =>
    obtain ⟨_, _, _, _, _, _, _, _, rfl⟩ := ht
    rfl

/-- A SHOT that changes anything was accepted in IDLE (R105). -/
theorem idle_of_exec_shot_changes {f : Bool} {rest : List Stimulus} {s t : State}
    (h : exec (.shot f) { s with stimuli := rest } = .next t)
    (hne : t.persistent ≠ s.persistent ∨ t.stream ≠ s.stream) : s.phase = .idle := by
  by_contra hbusy
  cases (exec_shot_of_busy f (s := { s with stimuli := rest }) hbusy).symm.trans h
  simp [State.persistent] at hne

/-- Settles O58: of all that a step can be, RESET, a move and an accepted SHOT are what reaches the cells, and a move of FRAME and
an accepted SHOT what reaches the stream. -/
theorem resetAndShotAreTheOnlyWaysIn : Obligations.ResetAndShotAreTheOnlyWaysIn := by
  intro s t hb hstep
  have hcase := stepped hb hstep
  have hcells : (t.prev ≠ s.prev ∨ t.cursor ≠ s.cursor ∨ t.keepalive ≠ s.keepalive) ↔ t.persistent ≠ s.persistent := by
    simp only [Ne, persistent_eq_iff]
    tauto
  rw [hcells]
  refine ⟨hcase.bench.trans hb, ?_⟩
  cases hcase with
  | reset u hu ht =>
    obtain ⟨_, _, _, _, _, _, _, _, rfl⟩ := hu
    subst ht
    refine ⟨fun _ => .inl ⟨resetOp_resets _, fun a => ?_, resetOp_cursor _, resetOp_keepalive _⟩, fun hne => ?_⟩
    · rw [resetOp_prev, Memory.read_nil]
    · exact absurd (resetOp_stream _) hne
  | move u hu hmoves ht =>
    have hmove := phaseMove_moveFrame ht
    obtain ⟨_, _, _, _, _, _, _, _, rfl⟩ := hu
    refine ⟨fun hne => .inr (.inl ⟨?_, hmoves⟩), fun hne => .inl ⟨?_, hmoves⟩⟩
    · rw [busy_eq_true_iff]
      intro hidle
      refine hne ((persistent_eq_iff s t).2 ⟨hmove.prev ?_, hmove.cursor ?_, hmove.keepalive ?_⟩) <;> simp [hidle]
    · by_contra hphase
      exact hne (hmove.stream hphase)
  | command f rest hst ht =>
    exact ⟨fun hne => .inr (.inr ⟨idle_of_exec_shot_changes ht (.inl hne), f, rest, hst⟩),
      fun hne => .inr ⟨idle_of_exec_shot_changes ht (.inr hne), f, rest, hst⟩⟩
  | inputs ht =>
    obtain ⟨_, _, _, _, _, _, _, _, rfl⟩ := ht
    exact ⟨fun hne => absurd rfl hne, fun hne => absurd rfl hne⟩

end Sys2Proof.Machine
end

section
/-! The two levels of an invocation (log 11): what the moves of the sequencer read of their surroundings, what is left to do of an
invocation at each of them, and how a run under a fair transport ends where SHOT's one transition ends. -/

namespace Sys2Proof.Machine

/-! What the operations do not read: PHASE, the pins and the stimuli -/

/-- A change of PHASE, of the levels of the pins and of the stimuli. -/
structure Rewiring where
  phase : Phase → Phase := id
  rst : Bool → Bool := id
  start : Bool → Bool := id
  forcePin : Bool → Bool := id
  linkPresent : Bool → Bool := id
  txReady : Bool → Bool := id
  stimuli : List Stimulus → List Stimulus := id

/-- The state after such a change. -/
def State.rewire (w : Rewiring) (s : State) : State :=
  { s with
    phase := w.phase s.phase
    rst := w.rst s.rst
    start := w.start s.start
    forcePin := w.forcePin s.forcePin
    linkPresent := w.linkPresent s.linkPresent
    txReady := w.txReady s.txReady
    stimuli := w.stimuli s.stimuli }

/-- The same change, PHASE left as it is. -/
def Rewiring.wires (w : Rewiring) : Rewiring := { w with phase := id }

/-- The operation does the same before and after the change, and the change stays. -/
def Ignores (w : Rewiring) (op : State → Res) : Prop :=
  ∀ s, op (s.rewire w) = andThen (op s) fun t => .next (t.rewire w)

/-- The same for an operation that sets PHASE itself. -/
def EndsAlike (w : Rewiring) (op : State → Res) : Prop :=
  ∀ s, op (s.rewire w) = andThen (op s) fun t => .next (t.rewire w.wires)

section
variable {w : Rewiring} {f g : State → Res}

theorem Ignores.andThen (hf : Ignores w f) (hg : Ignores w g) : Ignores w fun s => andThen (f s) g := by
  intro s
  show Machine.andThen (f (s.rewire w)) g = Machine.andThen (Machine.andThen (f s) g) _
  rw [hf s]
  cases f s with
  | next t => exact hg t
  | fault e => rfl
  | refused e => rfl

theorem Ignores.endsAlike (hf : Ignores w f) (hg : EndsAlike w g) : EndsAlike w fun s => Machine.andThen (f s) g := by
  intro s
  show Machine.andThen (f (s.rewire w)) g = Machine.andThen (Machine.andThen (f s) g) _
  rw [hf s]
  cases f s with
  | next t => exact hg t
  | fault e => rfl
  | refused e => rfl

theorem Ignores.times (hf : Ignores w f) (n : Nat) : Ignores w (times n f) := by
  induction n with
  | zero => exact fun _ => rfl
  | succ n ih => exact hf.andThen ih

theorem Ignores.ite {c : State → Prop} [∀ s, Decidable (c s)] (hc : ∀ s, c (s.rewire w) ↔ c s) (hf : Ignores w f)
    (hg : Ignores w g) : Ignores w fun s => if c s then f s else g s := by
  intro s
  show (if c (s.rewire w) then f (s.rewire w) else g (s.rewire w)) = Machine.andThen (if c s then f s else g s) _
  by_cases h : c s
  · rw [if_pos h, if_pos ((hc s).2 h), hf s]
  · rw [if_neg h, if_neg (mt (hc s).1 h), hg s]

theorem EndsAlike.ite {c : State → Prop} [∀ s, Decidable (c s)] (hc : ∀ s, c (s.rewire w) ↔ c s) (hf : EndsAlike w f)
    (hg : EndsAlike w g) : EndsAlike w fun s => if c s then f s else g s := by
  intro s
  show (if c (s.rewire w) then f (s.rewire w) else g (s.rewire w)) = Machine.andThen (if c s then f s else g s) _
  by_cases h : c s
  · rw [if_pos h, if_pos ((hc s).2 h), hf s]
  · rw [if_neg h, if_neg (mt (hc s).1 h), hg s]

end

section
variable (w : Rewiring)

theorem flushOp_ignores : Ignores w flushOp := .ite (fun _ => Iff.rfl) (fun _ => rfl) fun _ => rfl

theorem packBitOp_ignores : Ignores w packBitOp :=
  .ite (fun _ => Iff.rfl) (fun s => flushOp_ignores w (placeBit s)) fun _ => rfl

theorem visitOp_ignores : Ignores w visitOp := (packBitOp_ignores w).andThen fun _ => rfl

theorem pflushOp_ignores : Ignores w pflushOp :=
  .ite (fun _ => Iff.rfl) (.ite (fun _ => Iff.rfl) (fun _ => rfl) fun _ => rfl) fun _ => rfl

theorem packOp_ignores : Ignores w packOp :=
  have hrow : Ignores w packRowOp := fun s => (visitOp_ignores w).times 1024 (rowInit s)
  Ignores.andThen (fun s => hrow.times 8 (packInit s)) (pflushOp_ignores w)

theorem cmp8Op_ignores : Ignores w cmp8Op := .ite (fun _ => Iff.rfl) (fun _ => rfl) fun _ => rfl

theorem emitBlkOp_ignores : Ignores w emitBlkOp :=
  .ite (fun _ => Iff.rfl) (.ite (fun _ => Iff.rfl) (fun _ => rfl) fun _ => rfl) fun _ => rfl

theorem blockOp_ignores : Ignores w blockOp := by
  refine (cmp8Op_ignores w).andThen (Ignores.andThen ?_ fun _ => rfl)
  exact .ite (c := fun t => (selOp t).included = true) (fun _ => Iff.rfl) (fun t => emitBlkOp_ignores w (selOp t)) fun _ => rfl

theorem dpassOp_ignores : Ignores w dpassOp :=
  Ignores.andThen (fun s => (blockOp_ignores w).times 128 (passInit s)) fun _ => rfl

/-! The parts of an invocation set PHASE at its exit -/

theorem sendFrame_rewire (payload : List Byte) (s : State) :
    sendFrame payload (s.rewire w) = (sendFrame payload s).rewire w := by
  rw [sendFrame_eq, sendFrame_eq]
  rfl

theorem frameOp_ignores : Ignores w frameOp :=
  .ite (fun _ => Iff.rfl) (fun s => congrArg Host.Outcome.next (sendFrame_rewire w (deltaPayload s) s)) fun _ => rfl

theorem transmitPart_endsAlike : EndsAlike w transmitPart :=
  .ite (c := fun s => (emptyChkOp s).empty = true) (fun _ => Iff.rfl) (fun _ => rfl)
    (Ignores.endsAlike (fun s => frameOp_ignores w (emptyChkOp s)) fun _ => rfl)

theorem encodePart_endsAlike : EndsAlike w encodePart := (dpassOp_ignores w).endsAlike (transmitPart_endsAlike w)

/-- GUARD and what follows it in R101. -/
def guardPart (s : State) : Res :=
  if (guardOp s).shapeOk then encodePart (guardOp s) else .next (exitInvocation .abortedShape (guardOp s))

theorem assemblePart_eq (s : State) : assemblePart s = andThen (packOp s) guardPart := rfl

theorem guardPart_endsAlike : EndsAlike w guardPart :=
  .ite (c := fun s => (guardOp s).shapeOk = true) (fun _ => Iff.rfl) (fun s => encodePart_endsAlike w (guardOp s)) fun _ => rfl

theorem assemblePart_endsAlike : EndsAlike w assemblePart := (packOp_ignores w).endsAlike (guardPart_endsAlike w)

/-- GATE reads `link_present`. -/
theorem gateOp_rewire {s : State} (hlink : w.linkPresent s.linkPresent = s.linkPresent) :
    gateOp (s.rewire w) = (gateOp s).rewire w := by
  show { s.rewire w with
      keepalive := gateKeepalive (w.linkPresent s.linkPresent) s.keepalive
      proceed := gateProceed (w.linkPresent s.linkPresent) s.keepalive } = _
  rw [hlink]
  rfl

theorem gatePart_endsAlike {s : State} (hlink : w.linkPresent s.linkPresent = s.linkPresent) :
    gatePart (s.rewire w) = andThen (gatePart s) fun t => .next (t.rewire w.wires) := by
  rw [gatePart, gateOp_rewire w hlink]
  exact EndsAlike.ite (c := fun t => t.proceed = true) (g := fun t => .next (exitInvocation .suppressed t)) (fun _ => Iff.rfl)
    (assemblePart_endsAlike w) (fun _ => rfl) (gateOp s)

/-! The moves look at `start` and `force` in IDLE, at the link in GATE and at `tx_ready` in FRAME -/

theorem idleMove_rewire {s : State} (hstart : w.start s.start = s.start) (hforce : w.forcePin s.forcePin = s.forcePin) :
    idleMove (s.rewire w.wires) = (idleMove s).rewire w.wires := by
  show (if w.start s.start then acceptStart (w.forcePin s.forcePin) (s.rewire w.wires) else _) = _
  rw [hstart, hforce, idleMove]
  split <;> rfl

theorem gateMove_rewire {s : State} (hlink : w.linkPresent s.linkPresent = s.linkPresent) :
    gateMove (s.rewire w.wires) = (gateMove s).rewire w.wires := by
  rw [gateMove, gateOp_rewire w.wires hlink, gateMove]
  show (if (gateOp s).proceed then _ else _) = _
  split <;> rfl

theorem guardMove_rewire (s : State) : guardMove (s.rewire w.wires) = (guardMove s).rewire w.wires := by
  show (if (guardOp s).shapeOk then _ else _) = _
  rw [guardMove]
  split <;> rfl

theorem packMove_ignores : Ignores w.wires packMove :=
  (visitOp_ignores w.wires).andThen
    (.ite (c := fun t => t.pos = 0) (fun _ => Iff.rfl) ((pflushOp_ignores w.wires).andThen fun _ => rfl) fun _ => rfl)

theorem deltaMove_ignores : Ignores w.wires deltaMove :=
  (blockOp_ignores w.wires).andThen
    (.ite (c := fun t => t.blk.toNat = 128) (fun _ => Iff.rfl) (fun _ => rfl) fun _ => rfl)

theorem sendMove_rewire {s : State} (hready : w.txReady s.txReady = s.txReady) :
    sendMove (s.rewire w.wires) = (sendMove s).rewire w.wires := by
  have htaken : (s.rewire w.wires).txTaken = s.txTaken := congrArg (· || !Config.txHasReady) hready
  have hframe : frameOf (s.rewire w.wires) = frameOf s := rfl
  have htx : (s.rewire w.wires).tx = s.tx := rfl
  rw [sendMove, htaken, hframe, htx, sendMove]
  split
  · rfl
  · split_ifs <;> rfl

theorem frameMove_rewire {s : State} (hready : w.txReady s.txReady = s.txReady) :
    frameMove (s.rewire w.wires) = andThen (frameMove s) fun t => .next (t.rewire w.wires) := by
  have hchk : emptyChkOp (s.rewire w.wires) = (emptyChkOp s).rewire w.wires := rfl
  have hdlen : (s.rewire w.wires).dlen = s.dlen := rfl
  have htx : (s.rewire w.wires).tx = s.tx := rfl
  have hempty : ((emptyChkOp s).rewire w.wires).empty = (emptyChkOp s).empty := rfl
  rw [frameMove, hchk, hdlen, htx, hempty, sendMove_rewire w hready, sendMove_rewire w (s := emptyChkOp s) hready, frameMove]
  split_ifs <;> rfl

theorem phaseMove_rewire {s : State}
    (hidle : s.phase = .idle → w.start s.start = s.start ∧ w.forcePin s.forcePin = s.forcePin)
    (hgate : s.phase = .gate → w.linkPresent s.linkPresent = s.linkPresent)
    (hframe : s.phase = .frame → w.txReady s.txReady = s.txReady) :
    phaseMove (s.rewire w.wires) = andThen (phaseMove s) fun t => .next (t.rewire w.wires) := by
  have hsame : (s.rewire w.wires).phase = s.phase := rfl
  cases hphase : s.phase with
  | idle =>
    obtain ⟨hstart, hforce⟩ := hidle hphase
    rw [phaseMove_idle (hsame.trans hphase), phaseMove_idle hphase, idleMove_rewire w hstart hforce, andThen_next]
  | gate => rw [phaseMove_gate (hsame.trans hphase), phaseMove_gate hphase, gateMove_rewire w (hgate hphase), andThen_next]
  | pack =>
    rw [phaseMove_pack (hsame.trans hphase), phaseMove_pack hphase]
    exact packMove_ignores w s
  | guard => rw [phaseMove_guard (hsame.trans hphase), phaseMove_guard hphase, guardMove_rewire, andThen_next]
  | delta =>
    rw [phaseMove_delta (hsame.trans hphase), phaseMove_delta hphase]
    exact deltaMove_ignores w s
  | frame =>
    rw [phaseMove_frame (hsame.trans hphase), phaseMove_frame hphase]
    exact frameMove_rewire w (hframe hphase)

end

/-- Settles O47: a busy block's move does not look at `start` and `force`. -/
theorem startIsIgnoredWhileBusy : Obligations.StartIsIgnoredWhileBusy := by
  intro s b f hbench hbusy hr hst
  have hmove := phaseMove_rewire { start := fun _ => b, forcePin := fun _ => f } (s := s)
    (fun h => absurd h hbusy) (fun _ => rfl) fun _ => rfl
  rw [step_of_no_stimulus (s := { s with start := b, forcePin := f }) hbench hst, step_of_no_stimulus hbench hst,
    tick_of_not_rst hr, tick_of_not_rst (s := { s with start := b, forcePin := f }) hr]
  exact hmove

/-! A run of moves under an environment that drives the pins -/

/-- The levels of the pins as a change of the state. -/
def Pins.wiring (p : Pins) : Rewiring where
  rst := fun _ => false
  start := fun _ => p.start
  forcePin := fun _ => p.force
  linkPresent := fun _ => p.link
  txReady := fun _ => p.ready

theorem atPins_eq_rewire (s : State) (p : Pins) : s.atPins p = s.rewire p.wiring := rfl

theorem atPins_atPins (s : State) (p q : Pins) : (s.atPins p).atPins q = s.atPins q := rfl

/-- `n` moves, the pins at the environment's levels from time `k` on. -/
def movesFrom (env : Nat → Pins) : Nat → Nat → State → Res
  | _, 0, s => .next s
  | k, n + 1, s => andThen (phaseMove (s.atPins (env k))) (movesFrom env (k + 1) n)

theorem movesFrom_succ {env : Nat → Pins} {k : Nat} {s t : State} (h : phaseMove (s.atPins (env k)) = .next t) (n : Nat) :
    movesFrom env k (n + 1) s = movesFrom env (k + 1) n t := by
  rw [movesFrom, h, andThen_next]

/-- A run of a core goes on from the state of its first step. -/
theorem core_run_succ {M : Host.Core} {n : Nat} {s : M.State} {r : Host.Outcome M.State M.Fault M.Refusal}
    (h : M.step s = r) : M.run (n + 1) s = match (generalizing := false) r with
      | .next u => M.run n u
      | .fault e => .fault e
      | .refused e => .refused e := by
  subst h
  rfl

theorem run_succ (n : Nat) (s : State) :
    Host.Core.run Sys2Proof.core (n + 1) s = andThen (step s) (Host.Core.run Sys2Proof.core n) := by
  cases hstep : step s <;> exact core_run_succ (M := Sys2Proof.core) hstep

/-- A step of a driven run is the move, whatever the environment will do after it. -/
theorem step_of_driven {s : State} (hb : s.bench = none) (p : Pins) (rest : List Stimulus) :
    step { s with stimuli := p.stimulus :: rest } =
      andThen (phaseMove (s.atPins p)) fun t => .next { t with stimuli := rest } := by
  rw [drivenStep (s := { s with stimuli := p.stimulus :: rest }) hb rfl, tick_of_not_rst (by rfl)]
  exact phaseMove_rewire { stimuli := fun _ => rest } (s := s.atPins p) (fun _ => ⟨rfl, rfl⟩) (fun _ => rfl) fun _ => rfl

theorem run_driven_from (env : Nat → Pins) (k n : Nat) {s : State} (hb : s.bench = none) (hst : s.stimuli = []) :
    Host.Core.run Sys2Proof.core n { s with stimuli := (List.range' k n).map fun j => (env j).stimulus } =
      movesFrom env k n s := by
  induction n generalizing k s with
  | zero =>
    have hs : { s with stimuli := [] } = s := by rw [← hst]
    exact congrArg Host.Outcome.next hs
  | succ n ih =>
    rw [run_succ, List.range'_succ, List.map_cons, step_of_driven hb]
    cases hmove : phaseMove (s.atPins (env k)) with
    | next t =>
      have henv := phaseMove_keepsEnvironment hmove
      have htb : t.bench = none := (congrArg Environment.bench henv).trans hb
      have htst : t.stimuli = [] := (congrArg Environment.stimuli henv).trans hst
      rw [movesFrom_succ hmove]
      exact ih (k + 1) htb htst
    | fault e =>
      rw [movesFrom, hmove]
      rfl
    | refused e =>
      rw [movesFrom, hmove]
      rfl

/-- A driven run is the moves, with no stimulus left at its end. -/
theorem runDriven_eq (env : Nat → Pins) (n : Nat) {s : State} (hb : s.bench = none) :
    runDriven env n s = movesFrom env 0 n { s with stimuli := [] } := by
  rw [runDriven, List.range_eq_range']
  exact run_driven_from env 0 n (s := { s with stimuli := [] }) hb rfl

/-! The end of an invocation under a fair transport (R234, D17) -/

/-- The transport takes a byte at these levels: `tx_ready` is 1, or there is no such port (log 13). -/
def Pins.takes (p : Pins) : Bool := p.ready || !Config.txHasReady

theorem atPins_txTaken (s : State) (p : Pins) : (s.atPins p).txTaken = p.takes := rfl

/-- The transport takes a byte again and again. -/
def takesFairly (env : Nat → Pins) : Prop := ∀ n, ∃ k, n ≤ k ∧ (env k).takes = true

theorem takesFairly_of_fairTransport {env : Nat → Pins} (h : fairTransport env) : takesFairly env := by
  intro n
  obtain ⟨k, hk, hready⟩ := h n
  exact ⟨k, hk, by rw [Pins.takes, hready, Bool.true_or]⟩

theorem sequenceInv_atPins {s : State} (h : s.SequenceInv) (p : Pins) : (s.atPins p).SequenceInv :=
  InputsChanged.sequenceInv ⟨_, _, _, _, _, _, _, _, rfl⟩ h

/-- From `s` at time `k` the moves come to the exit after `n` of them, and the block is busy at every one before. -/
structure EndsAfter (env : Nat → Pins) (k : Nat) (s : State) (n : Nat) (t : State) : Prop where
  moves : movesFrom env k n s = .next t
  idle : t.phase = .idle
  done : t.done = true
  outcome : t.outcome = .sent ∨ t.outcome = .suppressed
  before : ∀ m, m < n → ∃ u, movesFrom env k m s = .next u ∧ u.phase ≠ .idle

/-- One move more at the front. -/
theorem EndsAfter.succ {env : Nat → Pins} {k n : Nat} {s u t : State} (hbusy : s.phase ≠ .idle)
    (hmove : phaseMove (s.atPins (env k)) = .next u) (h : EndsAfter env (k + 1) u n t) : EndsAfter env k s (n + 1) t where
  moves := (movesFrom_succ hmove n).trans h.moves
  idle := h.idle
  done := h.done
  outcome := h.outcome
  before := by
    intro m hm
    cases m with
    | zero => exact ⟨s, rfl, hbusy⟩
    | succ m =>
      obtain ⟨v, hv, hvbusy⟩ := h.before m (Nat.lt_of_succ_lt_succ hm)
      exact ⟨v, (movesFrom_succ hmove m).trans hv, hvbusy⟩

/-- The exit at the next move. -/
theorem endsAfter_one {env : Nat → Pins} {k : Nat} {s t : State} (hbusy : s.phase ≠ .idle)
    (hmove : phaseMove (s.atPins (env k)) = .next t) (hidle : t.phase = .idle) (hdone : t.done = true)
    (hout : t.outcome = .sent ∨ t.outcome = .suppressed) : EndsAfter env k s 1 t :=
  EndsAfter.succ (n := 0) hbusy hmove ⟨rfl, hidle, hdone, hout, fun _ hm => absurd hm (Nat.not_lt_zero _)⟩

section
variable {env : Nat → Pins} {r : Nat}
  (hfewer : ∀ {k : Nat} {u : State}, u.SequenceInv → u.phase ≠ .idle → u.movesLeft < r → ∃ n t, EndsAfter env k u n t)
include hfewer

/-- Where the end is known for states with fewer moves left, one move brings it, or the block waits for the transport. -/
theorem endsAfter_or_waits {k : Nat} {s : State} (h : s.SequenceInv) (hbusy : s.phase ≠ .idle) (hleft : s.movesLeft ≤ r) :
    (∃ n t, EndsAfter env k s n t) ∨
      ∃ u, phaseMove (s.atPins (env k)) = .next u ∧ u.SequenceInv ∧ (env k).takes = false ∧
        u = { s.atPins (env k) with empty := u.empty } := by
  obtain ⟨u, hmove, hu, hmoved⟩ := phaseMove_run (sequenceInv_atPins h (env k)) hbusy
  cases hmoved with
  | advanced hubusy hless =>
    obtain ⟨n, t, hend⟩ := hfewer (k := k + 1) hu hubusy (Nat.lt_of_lt_of_le hless hleft)
    exact .inl ⟨n + 1, t, hend.succ hbusy hmove⟩
  | ended hidle hdone hhow => exact .inl ⟨1, u, endsAfter_one hbusy hmove hidle hdone (hhow.imp And.right And.right)⟩
  | waiting _ hwait hsame => exact .inr ⟨u, hmove, hu, hwait, hsame⟩

/-- A wait ends when the transport takes the byte, `d` moves from now at the latest. -/
theorem endsAfter_of_takes (d : Nat) {k : Nat} (htakes : (env (k + d)).takes = true) {s : State} (h : s.SequenceInv)
    (hbusy : s.phase ≠ .idle) (hleft : s.movesLeft ≤ r) : ∃ n t, EndsAfter env k s n t := by
  induction d generalizing k s with
  | zero =>
    obtain hend | ⟨_, _, _, hwait, _⟩ := endsAfter_or_waits hfewer (k := k) h hbusy hleft
    · exact hend
    · exact absurd (htakes.symm.trans hwait) (by decide)
  | succ d ih =>
    obtain hend | ⟨u, hmove, hu, -, hsame⟩ := endsAfter_or_waits hfewer (k := k) h hbusy hleft
    · exact hend
    · have htakes' : (env (k + 1 + d)).takes = true := by rwa [Nat.add_right_comm k 1 d]
      have hubusy : u.phase ≠ .idle := by
        rw [hsame]
        exact hbusy
      have huleft : u.movesLeft ≤ r := by
        rw [hsame]
        exact hleft
      obtain ⟨n, t, hend⟩ := ih htakes' hu hubusy huleft
      exact ⟨n + 1, t, hend.succ hbusy hmove⟩

end

/-- Every busy block gets to the exit: the moves that do not wait are limited in number, and between them it waits finitely. -/
theorem endsAfter_of_fair {env : Nat → Pins} (hfair : takesFairly env) (r : Nat) {k : Nat} {s : State} (h : s.SequenceInv)
    (hbusy : s.phase ≠ .idle) (hleft : s.movesLeft ≤ r) : ∃ n t, EndsAfter env k s n t := by
  induction r using Nat.strong_induction_on generalizing k s with
  | h r ih =>
    obtain ⟨k', hk, htakes⟩ := hfair k
    obtain ⟨d, rfl⟩ := Nat.exists_eq_add_of_le hk
    exact endsAfter_of_takes (fun hu hubusy hless => ih _ hless hu hubusy (Nat.le_refl _)) d htakes h hbusy hleft

/-- Settles O56: the moves of a driven run. -/
theorem sequencedInvocationsEndUnderAFairTransport : Obligations.SequencedInvocationsEndUnderAFairTransport := by
  intro env s h hbusy hfair
  rw [busy_eq_true_iff] at hbusy
  have hinv : State.SequenceInv { s with stimuli := [] } := { h with }
  obtain ⟨n, t, hend⟩ := endsAfter_of_fair (takesFairly_of_fairTransport hfair) _ (k := 0) hinv hbusy (Nat.le_refl _)
  refine ⟨n, t, (runDriven_eq env n h.benchEmpty).trans hend.moves, (busy_eq_false_iff t).2 hend.idle, hend.done, hend.outcome,
    fun m hm => ?_⟩
  obtain ⟨u, hu, hubusy⟩ := hend.before m hm
  exact ⟨u, (runDriven_eq env m h.benchEmpty).trans hu, (busy_eq_true_iff u).2 hubusy⟩

/-! The hang without fairness (R234, U10) -/

/-- What holds while the block waits in FRAME: nothing of what is said here has changed since `s`. -/
structure Held (s t : State) : Prop where
  inv : t.SequenceInv
  phase : t.phase = .frame
  tx : t.tx = s.tx
  stream : t.stream = s.stream
  prev : t.prev = s.prev
  cursor : t.cursor = s.cursor
  keepalive : t.keepalive = s.keepalive

theorem held_movesFrom {env : Nat → Pins} (hnever : ∀ n, (env n).takes = false) {s : State} (n : Nat) {k : Nat} {u : State}
    (h : Held s u) : ∃ t, movesFrom env k n u = .next t ∧ Held s t := by
  induction n generalizing k u with
  | zero => exact ⟨u, rfl, h⟩
  | succ n ih =>
    have hinv := sequenceInv_atPins h.inv (env k)
    obtain ⟨b, hb⟩ := frame_next_byte hinv h.phase
    have hwait : (u.atPins (env k)).txTaken = false := (atPins_txTaken u (env k)).trans (hnever k)
    have hmove : phaseMove (u.atPins (env k)) = .next (framing (u.atPins (env k))) := by
      rw [phaseMove_frame (s := u.atPins (env k)) h.phase, frameMove_eq hinv h.phase hb, hwait]
      rfl
    obtain ⟨v, hv, hvinv⟩ := phaseMove_sequenceInv hinv
    cases hv.symm.trans hmove
    rw [movesFrom_succ hmove]
    refine ih ⟨hvinv, ?_, ?_, ?_, ?_, ?_, ?_⟩ <;> rw [framing_eq]
    exacts [h.phase, h.tx, h.stream, h.prev, h.cursor, h.keepalive]

/-- Settles O57: with a `tx_ready` that is never 1 every move of FRAME waits. -/
theorem anUnfairTransportHoldsTheBlockInFrame : Obligations.AnUnfairTransportHoldsTheBlockInFrame := by
  intro env s h hphase hnever
  cases hport : Config.txHasReady with
  | false => exact .inl rfl
  | true =>
    refine .inr fun n => ?_
    have hwait (k : Nat) : (env k).takes = false := by rw [Pins.takes, hnever, hport, Bool.not_true, Bool.or_false]
    have hstart : Held s { s with stimuli := [] } := ⟨{ h with }, hphase, rfl, rfl, rfl, rfl, rfl⟩
    obtain ⟨t, ht, hheld⟩ := held_movesFrom hwait n (k := 0) hstart
    exact ⟨t, (runDriven_eq env n h.benchEmpty).trans ht, hheld.phase, hheld.tx, hheld.stream, hheld.prev, hheld.cursor,
      hheld.keepalive⟩

end Sys2Proof.Machine
end

section
/-! The sequencer's moves and SHOT's one transition (log 11): from every state of an invocation its end is written down as SHOT
would reach it, and no move changes that end. -/

namespace Sys2Proof.Machine

/-! The end of an invocation, from where it stands -/

/-- The rest of PACK, `n` bits and PFLUSH, and what follows it in R101. -/
def packRest (n : Nat) (s : State) : Res :=
  andThen (times n visitOp s) fun t => andThen (pflushOp t) guardPart

/-- The rest of the pass, `n` blocks and ADVANCE, and what follows it in R101. -/
def passRest (n : Nat) (s : State) : Res :=
  andThen (times n blockOp s) fun t => transmitPart (advanceOp t)

/-- The frame's bytes that are still to be sent. -/
def unsent (s : State) : List Byte := (frameOf s).drop s.tx.length

/-- The end of a frame of which some bytes are sent. -/
def frameRest (s : State) : State :=
  exitInvocation .sent
    { framing s with tx := s.tx ++ unsent s, stream := s.stream ++ unsent s, txArg := [Config.term] }

/-- What the invocation comes to, as R101 says it of the whole, from where the block stands in it. -/
def finish (s : State) : Res :=
  match s.phase with
  | .idle => .next s
  | .gate => gatePart s
  | .pack => packRest (8192 - s.pos.toNat) s
  | .guard => guardPart s
  | .delta => passRest (128 - s.blk.toNat) s
  | .frame => .next (frameRest s)

theorem finish_idle {s : State} (h : s.phase = .idle) : finish s = .next s := by rw [finish, h]
theorem finish_gate {s : State} (h : s.phase = .gate) : finish s = gatePart s := by rw [finish, h]
theorem finish_pack {s : State} (h : s.phase = .pack) : finish s = packRest (8192 - s.pos.toNat) s := by rw [finish, h]
theorem finish_guard {s : State} (h : s.phase = .guard) : finish s = guardPart s := by rw [finish, h]
theorem finish_delta {s : State} (h : s.phase = .delta) : finish s = passRest (128 - s.blk.toNat) s := by rw [finish, h]
theorem finish_frame {s : State} (h : s.phase = .frame) : finish s = .next (frameRest s) := by rw [finish, h]

/-- SHOT in IDLE is that end from its start. -/
theorem exec_shot_eq_finish (f : Bool) {s : State} (hidle : s.phase = .idle) :
    exec (.shot f) s = finish (acceptStart f s) :=
  (if_pos hidle).trans (finish_gate (by rfl)).symm

/-! How the parts follow one another -/

theorem packRest_succ {n : Nat} {s t : State} (h : visitOp s = .next t) : packRest (n + 1) s = packRest n t := by
  rw [packRest, times_succ, h, andThen_next]
  rfl

theorem packRest_zero (s : State) : packRest 0 s = andThen (pflushOp s) guardPart := rfl

/-- PACK from its start. -/
theorem packRest_packInit (s : State) : packRest 8192 (packInit s) = assemblePart s := by
  rw [assemblePart_eq, packOp_eq_visits, andThen_assoc]
  rfl

theorem passRest_succ {n : Nat} {s t : State} (h : blockOp s = .next t) : passRest (n + 1) s = passRest n t := by
  rw [passRest, times_succ, h, andThen_next]
  rfl

theorem passRest_zero (s : State) : passRest 0 s = transmitPart (advanceOp s) := rfl

/-- The pass from its start. -/
theorem passRest_passInit (s : State) : passRest 128 (passInit s) = encodePart s := by
  rw [encodePart, dpassOp, andThen_assoc]
  rfl

/-- A part that sets PHASE itself does not look at it. -/
theorem EndsAlike.phase {op : State → Res} (p : Phase) (s : State) (h : EndsAlike { phase := fun _ => p } op) :
    op { s with phase := p } = op s :=
  (h s).trans (andThen_pure (op s))

theorem framing_tx (s : State) : (framing s).tx = s.tx := by rw [framing_eq]
theorem framing_dlen (s : State) : (framing s).dlen = s.dlen := by rw [framing_eq]
theorem framing_stream (s : State) : (framing s).stream = s.stream := by rw [framing_eq]

theorem framing_framing (s : State) : framing (framing s) = framing s := by
  by_cases htx : s.tx = []
  · have hframing : framing s = emptyChkOp s := if_pos htx
    rw [hframing]
    exact if_pos htx
  · have hframing : framing s = s := if_neg htx
    rw [hframing, hframing]

theorem unsent_framing (s : State) : unsent (framing s) = unsent s := by
  rw [framing_eq]
  rfl

/-- EMPTYCHK written twice is EMPTYCHK. -/
theorem frameRest_framing (s : State) : frameRest (framing s) = frameRest s := by
  rw [frameRest, framing_framing, unsent_framing, framing_tx, framing_stream]
  rfl

/-- The end of a frame before its first byte is FRAME as one transition. -/
theorem frameRest_eq_frameSent {s : State} (htx : s.tx = []) : frameRest s = frameSent s := by
  have hframing : framing s = emptyChkOp s := if_pos htx
  rw [frameSent_eq htx, frameRest, unsent, hframing, htx]
  rfl

theorem frameRest_phase (p : Phase) (s : State) : frameRest { s with phase := p } = frameRest s := by
  have hframing : framing { s with phase := p } = { framing s with phase := p } := by
    rw [framing, framing]
    split <;> rfl
  rw [frameRest, hframing]
  rfl

/-- The terminator is the last byte of a frame. -/
theorem frameOf_last {s : State} {b : Byte} (hb : (frameOf s)[s.tx.length]? = some b)
    (hlast : s.tx.length + 1 = s.dlen.toNat + 6) : b = Config.term := by
  have hindex : s.tx.length = (frameOf s).length - 1 := by
    rw [frameOf_length]
    omega
  have hterm : (frameOf s).getLast? = some Config.term := by
    rw [frameOf, wireBytes, List.getLast?_concat]
  rw [hindex, ← List.getLast?_eq_getElem?, hterm] at hb
  exact (Option.some.inj hb).symm

theorem unsent_eq_cons {s : State} {b : Byte} (hb : (frameOf s)[s.tx.length]? = some b) :
    unsent s = b :: (frameOf s).drop (s.tx.length + 1) := by
  obtain ⟨hlt, rfl⟩ := List.getElem?_eq_some_iff.1 hb
  exact List.drop_eq_getElem_cons hlt

/-- The end of a frame is the same before a byte is handed over and after. -/
theorem finish_handOver {s : State} (hphase : s.phase = .frame) {b : Byte} (hb : (frameOf s)[s.tx.length]? = some b) :
    finish (handOver b (framing s)) = .next (frameRest s) := by
  have hunsent := unsent_eq_cons hb
  rw [handOver, framing_tx, framing_dlen]
  by_cases hlast : s.tx.length + 1 = s.dlen.toNat + 6
  · have hnone : (frameOf s).drop (s.tx.length + 1) = [] :=
      List.drop_eq_nil_of_le (by rw [frameOf_length, hlast])
    rw [if_pos hlast, finish_idle (by rfl), frameRest, hunsent, hnone, frameOf_last hb hlast, framing_eq]
    rfl
  · have hsent : framing (txBytes [b] (framing s)) = txBytes [b] (framing s) :=
      if_neg (by rw [txBytes_tx]; exact List.append_ne_nil_of_right_ne_nil _ (List.cons_ne_nil _ _))
    have hframe : frameOf (txBytes [b] (framing s)) = frameOf s := by
      rw [framing_eq]
      rfl
    have hrest : unsent (txBytes [b] (framing s)) = (frameOf s).drop (s.tx.length + 1) := by
      rw [unsent, hframe, txBytes_tx, framing_tx, List.length_append, List.length_singleton]
    rw [if_neg hlast, finish_frame (by rw [framing_eq]; exact hphase), frameRest, hsent, hrest, frameRest, hunsent, txBytes_tx,
      txBytes_stream, framing_tx, framing_stream, List.append_assoc, List.append_assoc, List.singleton_append]
    rfl

/-! No move changes the end -/

theorem finish_gateMove {s : State} (hphase : s.phase = .gate) : finish (gateMove s) = finish s := by
  rw [finish_gate hphase, gatePart, gateMove]
  cases (gateOp s).proceed with
  | true =>
    rw [if_pos rfl, if_pos rfl, finish_pack (by rfl)]
    exact (packRest_packInit { gateOp s with phase := .pack }).trans
      (EndsAlike.phase .pack (gateOp s) (assemblePart_endsAlike _))
  | false => exact finish_idle rfl

theorem finish_guardMove {s : State} (hphase : s.phase = .guard) : finish (guardMove s) = finish s := by
  rw [finish_guard hphase, guardPart, guardMove]
  cases (guardOp s).shapeOk with
  | true =>
    rw [if_pos rfl, if_pos rfl, finish_delta (by rfl)]
    exact (passRest_passInit { guardOp s with phase := .delta }).trans
      (EndsAlike.phase .delta (guardOp s) (encodePart_endsAlike _))
  | false => exact finish_idle rfl

section
variable {s : State} (h : s.SequenceInv)
include h

theorem finish_packMove (hphase : s.phase = .pack) {t : State} (ht : packMove s = .next t) : finish t = finish s := by
  obtain ⟨u, hu, -⟩ := pack_visit h hphase
  have hlt := s.pos.isLt
  have hpos : u.pos.toNat = (s.pos.toNat + 1) % 8192 := by
    rw [visitOp_pos hu, BitVec.toNat_add]
    rfl
  have huphase : u.phase = s.phase := by
    obtain ⟨_, _, _, _, _, rfl⟩ := packerFrame_visitOp hu
    rfl
  obtain ⟨m, hm⟩ : ∃ m, 8192 - s.pos.toNat = m + 1 := ⟨8191 - s.pos.toNat, by omega⟩
  rw [finish_pack hphase, hm, packRest_succ hu]
  rw [packMove, hu, andThen_next] at ht
  by_cases hlast : u.pos = 0
  · have hzero : u.pos.toNat = 0 := congrArg BitVec.toNat hlast
    have hm0 : m = 0 := by omega
    rw [if_pos hlast, andThen_eq_next] at ht
    obtain ⟨v, hv, hvt⟩ := ht
    cases hvt
    rw [hm0, packRest_zero, hv, andThen_next, finish_guard (by rfl)]
    exact EndsAlike.phase .guard v (guardPart_endsAlike _)
  · have hne : u.pos.toNat ≠ 0 := fun hz => hlast (BitVec.eq_of_toNat_eq hz)
    have hm' : 8192 - u.pos.toNat = m := by omega
    rw [if_neg hlast] at ht
    cases ht
    rw [finish_pack (huphase.trans hphase), hm']

theorem finish_deltaMove (hphase : s.phase = .delta) {t : State} (hinv : t.SequenceInv) (ht : deltaMove s = .next t) :
    finish t = finish s := by
  have hb : s.blk.toNat < 128 := h.deltaBlock hphase
  have htx : s.tx = [] := h.nothingSent (by simp [hphase]) (by simp [hphase])
  rw [deltaMove, andThen_eq_next] at ht
  obtain ⟨u, hu, ht⟩ := ht
  have hblk := blockOp_blk hu
  obtain ⟨m, hm⟩ : ∃ m, 128 - s.blk.toNat = m + 1 := ⟨127 - s.blk.toNat, by omega⟩
  obtain ⟨huphase, hutx⟩ : u.phase = s.phase ∧ u.tx = s.tx := by
    obtain ⟨_, _, _, _, _, _, _, rfl⟩ := passFrame_blockOp hu
    exact ⟨rfl, rfl⟩
  rw [finish_delta hphase, hm, passRest_succ hu]
  by_cases hlast : u.blk.toNat = 128
  · have hm0 : m = 0 := by omega
    cases (if_pos hlast).symm.trans ht
    obtain ⟨hpos, hle⟩ : 9 ≤ (advanceOp u).dlen.toNat ∧ (advanceOp u).dlen.toNat ≤ 1152 := hinv.framePayload rfl
    have hrest : frameRest (advanceOp u) = frameSent (advanceOp u) := frameRest_eq_frameSent (hutx.trans htx)
    rw [hm0, passRest_zero, transmitPart_of_pos hpos hle, ← hrest, finish_frame (by rfl)]
    exact congrArg Host.Outcome.next (frameRest_phase .frame (advanceOp u))
  · have hm' : 128 - u.blk.toNat = m := by omega
    cases (if_neg hlast).symm.trans ht
    rw [finish_delta (huphase.trans hphase), hm']

theorem finish_frameMove (hphase : s.phase = .frame) {t : State} (ht : frameMove s = .next t) : finish t = finish s := by
  obtain ⟨b, hb⟩ := frame_next_byte h hphase
  rw [frameMove_eq h hphase hb] at ht
  cases ht
  rw [finish_frame hphase]
  cases s.txTaken with
  | true => exact finish_handOver hphase hb
  | false =>
    have hsame : (framing s).phase = .frame := by rw [framing_eq, hphase]
    exact (finish_frame hsame).trans (congrArg Host.Outcome.next (frameRest_framing s))

/-- A move of a busy block leaves the end of its invocation as it was. -/
theorem finish_phaseMove (hbusy : s.phase ≠ .idle) {t : State} (ht : phaseMove s = .next t) : finish t = finish s := by
  obtain ⟨u, hu, hinv⟩ := phaseMove_sequenceInv h
  cases hu.symm.trans ht
  cases hphase : s.phase with
  | idle => exact absurd hphase hbusy
  | gate =>
    cases (phaseMove_gate hphase).symm.trans ht
    exact finish_gateMove hphase
  | pack => exact finish_packMove h hphase ((phaseMove_pack hphase).symm.trans ht)
  | guard =>
    cases (phaseMove_guard hphase).symm.trans ht
    exact finish_guardMove hphase
  | delta => exact finish_deltaMove h hphase hinv ((phaseMove_delta hphase).symm.trans ht)
  | frame => exact finish_frameMove h hphase ((phaseMove_frame hphase).symm.trans ht)

end

/-! The pins play no part in it, but for the link in GATE -/

section
variable (w : Rewiring)

theorem packRest_endsAlike (n : Nat) : EndsAlike w (packRest n) :=
  ((visitOp_ignores w).times n).endsAlike ((pflushOp_ignores w).endsAlike (guardPart_endsAlike w))

theorem passRest_endsAlike (n : Nat) : EndsAlike w (passRest n) :=
  ((blockOp_ignores w).times n).endsAlike fun s => transmitPart_endsAlike w (advanceOp s)

theorem framing_rewire (s : State) : framing (s.rewire w) = (framing s).rewire w := by
  have htx : (s.rewire w).tx = s.tx := rfl
  rw [framing, htx, framing]
  split <;> rfl

theorem frameRest_rewire (s : State) : frameRest (s.rewire w.wires) = (frameRest s).rewire w.wires := by
  rw [frameRest, framing_rewire]
  rfl

theorem finish_rewire {s : State} (hgate : s.phase = .gate → w.linkPresent s.linkPresent = s.linkPresent) :
    finish (s.rewire w.wires) = andThen (finish s) fun t => .next (t.rewire w.wires) := by
  have hsame : (s.rewire w.wires).phase = s.phase := rfl
  cases hphase : s.phase with
  | idle => rw [finish_idle (hsame.trans hphase), finish_idle hphase, andThen_next]
  | gate =>
    rw [finish_gate (hsame.trans hphase), finish_gate hphase]
    exact gatePart_endsAlike w.wires (hgate hphase)
  | pack =>
    rw [finish_pack (hsame.trans hphase), finish_pack hphase]
    exact packRest_endsAlike w.wires _ s
  | guard =>
    rw [finish_guard (hsame.trans hphase), finish_guard hphase]
    exact guardPart_endsAlike w.wires s
  | delta =>
    rw [finish_delta (hsame.trans hphase), finish_delta hphase]
    exact passRest_endsAlike w.wires _ s
  | frame => rw [finish_frame (hsame.trans hphase), finish_frame hphase, frameRest_rewire, andThen_next]

end

theorem finish_atPins {s v : State} {p : Pins} (hgate : s.phase = .gate → p.link = s.linkPresent) (h : finish s = .next v) :
    finish (s.atPins p) = .next (v.atPins p) := by
  rw [atPins_eq_rewire]
  refine (finish_rewire p.wiring hgate).trans ?_
  rw [h, andThen_next]
  rfl

/-! A run of moves ends there -/

theorem movesLeft_le {s : State} (h : s.SequenceInv) : s.movesLeft ≤ 9480 := by
  cases hphase : s.phase with
  | idle =>
    rw [State.movesLeft, hphase]
    exact Nat.zero_le _
  | gate => exact (movesLeft_gate hphase).le
  | pack =>
    rw [movesLeft_pack hphase]
    omega
  | guard =>
    rw [movesLeft_guard hphase]
    decide
  | delta =>
    rw [movesLeft_delta hphase]
    omega
  | frame =>
    have hle : s.dlen.toNat ≤ 1152 := (h.framePayload hphase).2
    rw [movesLeft_frame hphase]
    omega

/-- No move of a busy block leads to GATE: it has more moves left than any other PHASE. -/
theorem phase_ne_gate_of_phaseMove {s t : State} (h : s.SequenceInv) (hbusy : s.phase ≠ .idle) (ht : phaseMove s = .next t) :
    t.phase ≠ .gate := by
  obtain ⟨u, hu, -, hmoved⟩ := phaseMove_run h hbusy
  cases hu.symm.trans ht
  intro hgate
  cases hmoved with
  | advanced _ hless =>
    rw [movesLeft_gate hgate] at hless
    exact absurd (movesLeft_le h) (Nat.not_le.2 hless)
  | ended hidle => exact Phase.noConfusion (hgate.symm.trans hidle)
  | waiting hframe _ hsame =>
    rw [hsame] at hgate
    exact Phase.noConfusion (hgate.symm.trans hframe)

theorem EndsAfter.tail {env : Nat → Pins} {k n : Nat} {s u t : State} (h : EndsAfter env k s (n + 1) t)
    (hmove : phaseMove (s.atPins (env k)) = .next u) : EndsAfter env (k + 1) u n t where
  moves := (movesFrom_succ hmove n).symm.trans h.moves
  idle := h.idle
  done := h.done
  outcome := h.outcome
  before := by
    intro m hm
    obtain ⟨v, hv, hbusy⟩ := h.before (m + 1) (Nat.succ_lt_succ hm)
    exact ⟨v, (movesFrom_succ hmove m).symm.trans hv, hbusy⟩

/-- Past GATE the moves end where the invocation's end is written down, whatever the pins do meanwhile. -/
theorem EndsAfter.eq_finish {env : Nat → Pins} {n k : Nat} {s t v : State} (hend : EndsAfter env k s (n + 1) t)
    (h : s.SequenceInv) (hbusy : s.phase ≠ .idle) (hgate : s.phase ≠ .gate) (hv : finish s = .next v) :
    t = v.atPins (env (k + n)) := by
  induction n generalizing k s v with
  | zero =>
    have hinv := sequenceInv_atPins h (env k)
    obtain ⟨u, hmove, -⟩ := phaseMove_sequenceInv hinv
    cases (movesFrom_succ hmove 0).symm.trans hend.moves
    have hfinish := (finish_phaseMove hinv hbusy hmove).trans (finish_atPins (fun hg => absurd hg hgate) hv)
    exact Host.Outcome.next.inj ((finish_idle hend.idle).symm.trans hfinish)
  | succ n ih =>
    have hinv := sequenceInv_atPins h (env k)
    obtain ⟨u, hmove, hu⟩ := phaseMove_sequenceInv hinv
    have hfinish := (finish_phaseMove hinv hbusy hmove).trans (finish_atPins (fun hg => absurd hg hgate) hv)
    have hrest := hend.tail hmove
    obtain ⟨u', hu', hubusy⟩ := hrest.before 0 (Nat.zero_lt_succ n)
    cases hu'
    rw [ih hrest hu hubusy (phase_ne_gate_of_phaseMove hinv hbusy hmove) hfinish, atPins_atPins, Nat.add_right_comm k 1 n]
    rfl

/-- From GATE the moves end where the invocation's end is written down, the link at its level there, under a transport that takes
every byte in the end. -/
theorem movesFrom_gate {env : Nat → Pins} (hfair : takesFairly env) {k : Nat} {s v : State} (hgate : s.phase = .gate)
    (hbench : s.bench = none) (htx : s.tx = []) (hv : finish (s.atPins (env k)) = .next (v.atPins (env k))) :
    ∃ n, movesFrom env k (n + 1) s = .next (v.atPins (env (k + n))) := by
  have hmoves (n : Nat) := movesFrom_succ (phaseMove_gate (s := s.atPins (env k)) hgate) n
  have hfinish := (finish_gateMove (s := s.atPins (env k)) hgate).trans hv
  cases hgo : proceeds (s.atPins (env k)).linkPresent (s.atPins (env k)).keepalive with
  | false =>
    have hout : (gateMove (s.atPins (env k))).phase = .idle := by
      rw [gateMove_of_not_proceeds hgo]
      rfl
    exact ⟨0, (hmoves 0).trans ((finish_idle hout).symm.trans hfinish)⟩
  | true =>
    have hpack : (gateMove (s.atPins (env k))).phase = .pack := by
      rw [gateMove_of_proceeds hgo]
    have hinv : (gateMove (s.atPins (env k))).SequenceInv := by
      rw [gateMove_of_proceeds hgo]
      exact sequenceInv_of_pack rfl hbench htx rfl (Nat.zero_lt_succ 7)
    have hbusy : (gateMove (s.atPins (env k))).phase ≠ .idle := by simp [hpack]
    obtain ⟨m, t, hend⟩ := endsAfter_of_fair hfair _ (k := k + 1) hinv hbusy (Nat.le_refl _)
    cases m with
    | zero =>
      cases hend.moves
      exact absurd hend.idle hbusy
    | succ m =>
      refine ⟨m + 1, ?_⟩
      rw [hmoves, hend.moves, hend.eq_finish hinv hbusy (by simp [hpack]) hfinish, atPins_atPins, Nat.add_right_comm k 1 m]
      rfl

/-- What the moves of an invocation that is started come to: the end of SHOT with the link at its level in the second move. -/
theorem movesFrom_start {env : Nat → Pins} (hfair : takesFairly env) {s : State} (hbench : s.bench = none)
    (hidle : s.phase = .idle) (hstart : (env 0).start = true) :
    ∃ n t, exec (.shot (env 0).force) { s with linkPresent := (env 1).link } = .next t ∧
      movesFrom env 0 (n + 2) s = .next (t.atPins (env (n + 1))) := by
  obtain ⟨t, ht⟩ := exec_shot_runs (env 0).force { s with linkPresent := (env 1).link }
  have haccept : phaseMove (s.atPins (env 0)) = .next (acceptStart (env 0).force (s.atPins (env 0))) :=
    (phaseMove_idle (s := s.atPins (env 0)) hidle).trans (congrArg Host.Outcome.next (if_pos hstart))
  have hshot : finish (acceptStart (env 0).force { s with linkPresent := (env 1).link }) = .next t :=
    (exec_shot_eq_finish _ (s := { s with linkPresent := (env 1).link }) hidle).symm.trans ht
  obtain ⟨n, hn⟩ := movesFrom_gate hfair (k := 1) (s := acceptStart (env 0).force (s.atPins (env 0))) rfl hbench rfl
    (finish_atPins (s := acceptStart (env 0).force { s with linkPresent := (env 1).link }) (fun _ => rfl) hshot)
  rw [Nat.add_comm 1 n] at hn
  exact ⟨n, t, ht, (movesFrom_succ haccept (n + 1)).trans hn⟩

/-- Settles O55: a driven run is the moves, which are SHOT's end under any transport that takes every byte in the end. -/
theorem theSequencedInvocationIsShotUnderAFairTransport :
    Obligations.TheSequencedInvocationIsShotUnderAFairTransport := by
  intro env s hbench hidle hstart hfair
  obtain ⟨n, t, hshot, hmoves⟩ :=
    movesFrom_start (takesFairly_of_fairTransport hfair) (s := { s with stimuli := [] }) hbench hidle hstart
  exact ⟨n + 2, t, Nat.le_add_left 2 n, hshot, (runDriven_eq env (n + 2) hbench).trans hmoves⟩

/-! A run without stimuli -/

/-- The levels at which the pins stand. -/
def State.levels (s : State) : Pins := ⟨s.start, s.forcePin, s.linkPresent, s.txReady⟩

theorem atPins_levels {s : State} (hr : s.rst = false) : s.atPins s.levels = s := by
  rw [State.atPins, ← hr]
  rfl

theorem levels_of_environment {s t : State} (h : t.environment = s.environment) : t.levels = s.levels :=
  congrArg (fun e : Environment => (⟨e.start, e.forcePin, e.linkPresent, e.txReady⟩ : Pins)) h

theorem atPins_levels_of_environment {s t : State} (hr : s.rst = false) (h : t.environment = s.environment) :
    t.atPins s.levels = t := by
  rw [← levels_of_environment h]
  exact atPins_levels ((congrArg Environment.rst h).trans hr)

/-- Where the environment does nothing, a run is the moves under the pins as they stand. -/
theorem run_undriven (p : Pins) (k n : Nat) {s : State} (hbench : s.bench = none) (hst : s.stimuli = [])
    (hr : s.rst = false) (hp : s.levels = p) :
    Host.Core.run Sys2Proof.core n s = movesFrom (fun _ => p) k n s := by
  induction n generalizing k s with
  | zero => rfl
  | succ n ih =>
    rw [run_succ, step_of_no_stimulus hbench hst, tick_of_not_rst hr, movesFrom, ← hp, atPins_levels hr]
    cases hmove : phaseMove s with
    | next t =>
      have henv := phaseMove_keepsEnvironment hmove
      rw [hp]
      exact ih (k + 1) ((congrArg Environment.bench henv).trans hbench) ((congrArg Environment.stimuli henv).trans hst)
        ((congrArg Environment.rst henv).trans hr) ((levels_of_environment henv).trans hp)
    | fault e => rfl
    | refused e => rfl

/-- Settles O43: the same with the pins as they stand, the transport ready at every move. -/
theorem theSequencedInvocationIsShot : Obligations.TheSequencedInvocationIsShot := by
  intro s hbench hidle hr hstart hst hready
  have htakes : s.levels.takes = true := by
    obtain hport | hready := hready
    · rw [Pins.takes, hport, Bool.not_false, Bool.or_true]
    · exact Bool.or_eq_true_iff.2 (.inl hready)
  obtain ⟨n, t, hshot, hmoves⟩ :=
    movesFrom_start (env := fun _ => s.levels) (fun k => ⟨k, Nat.le_refl k, htakes⟩) hbench hidle hstart
  have hsame : t.atPins s.levels = t := atPins_levels_of_environment hr (exec_keepsEnvironment _ hshot)
  rw [hsame] at hmoves
  exact ⟨n + 2, (run_undriven s.levels 0 (n + 2) hbench hst hr rfl).trans (hmoves.trans hshot.symm)⟩

end Sys2Proof.Machine
end
